-- ==== Sys2Proof/Word.lean ====
section
/-! DEFINITION. The words of the controller and of its host (00_scope.md R7, R8): 8-bit registers, 32-bit host words, the 12-bit
access word of R80, and the field `v[hi:lo]` of a byte. -/

namespace Sys2Proof

/-- One bit, as a value of width 1. -/
abbrev Bit := BitVec 1

/-- The contents of one register: "meaningful register width 8 bits" (R7). -/
abbrev Byte := BitVec 8

/-- One host word: "host access width 32 bits" (R7). -/
abbrev Word := BitVec 32

/-- The 12-bit access word `{W, OFF, DATA}` (R80). -/
abbrev AccessWord := BitVec 12

/-- `d[lo + len - 1 : lo]`, as an unsigned value (R8). -/
def byteField (d : Byte) (lo len : Nat) : Nat := d.toNat / 2 ^ lo % 2 ^ len

end Sys2Proof
end

