-- ==== Sys2Proof/Config.lean ====
section
/-! DEFINITION. The parameters of the controller and of its reference sequences (00_scope.md R7), the field layout record (92_eei_decisions.md
D2), the vocabulary of the bus (BusEvent, Cmd), and the free values: constants with no body, which nothing can evaluate. -/

namespace Sys2Proof

/-- What the bus trace records (41_bus_commands.md R140). An acknowledge bit is a line level: 0 = ACK, 1 = NACK (D3). -/
inductive BusEvent where
  /-- Start condition on an idle bus. -/
  | start
  /-- Start condition while the bus is busy (repeated start). -/
  | rstart
  /-- The master sent byte `b`; the slave answered `a`. -/
  | tx (b : Byte) (a : Bit)
  /-- The slave sent byte `b`; the master answered `m`. -/
  | rx (b : Byte) (m : Bit)
  /-- Stop condition. -/
  | stop
  deriving DecidableEq, Repr

/-- A command as it is in flight (10_state.md R31). -/
structure Cmd where
  sta : Bool
  sto : Bool
  rd : Bool
  wr : Bool
  ack : Bool
  deriving DecidableEq, Repr

/-- The places of the named bits of CTR, CR and SR, and of the reserved fields (lowest bit and width). "A model should keep the positions in
one configuration record so that a different layout changes one place" (D2). -/
structure FieldLayout where
  ctrEn : Nat
  ctrIen : Nat
  ctrResLo : Nat
  ctrResLen : Nat
  crSta : Nat
  crSto : Nat
  crRd : Nat
  crWr : Nat
  crAck : Nat
  crResLo : Nat
  crResLen : Nat
  crIack : Nat
  srRxack : Nat
  srBusy : Nat
  srTip : Nat
  srIf : Nat
  deriving DecidableEq, Repr

namespace Config

/-- The layout the spec adopts (R23, R26, R27, R81, R82, R83; D2). PRESUMED by the spec from the OpenCores core: notes/assumptions/10.md. -/
def layout : FieldLayout where
  ctrEn := 7
  ctrIen := 6
  ctrResLo := 0
  ctrResLen := 6
  crSta := 7
  crSto := 6
  crRd := 5
  crWr := 4
  crAck := 3
  crResLo := 1
  crResLen := 2
  crIack := 0
  srRxack := 7
  srBusy := 6
  srTip := 1
  srIf := 0

/-- `N`, the number of bus instances: "here N=1" (R7). -/
def numInstances : Nat := 1

/-- `STRIDE`, the bytes between two word offsets (R7, D4). -/
def stride : Nat := 4

/-- Word offsets 0 to 4 are registers (R60). -/
def numOffsets : Nat := 5

/-- Word offsets 0 to 7 are what an access word can name; 5 to 7 are refused (R80, R65). -/
def windowOffsets : Nat := 8

/-- `BAUD_DEFAULT` = 100 kHz (R7). -/
def baudDefault : Nat := 100000

/-- `BASE[i]`: OPEN, a model argument (R7, D4). notes/assumptions/19.md. -/
opaque base : Nat → Nat

/-- The instance table: index to base address; an index `i ≥ N` names no instance (20_memory.md R62). -/
def baseOf (i : Nat) : Option Nat := if i < numInstances then some (base i) else none

/-- `F_SRC - 1`: `F_SRC` is OPEN, a positive integer (R7, D8). notes/assumptions/19.md. -/
opaque fSrcPred : Nat

/-- `F_SRC`, the source clock in Hz, positive. -/
def fSrc : Nat := fSrcPred + 1

/-- `RES_SUCCESS`: OPEN (R7, R189). -/
opaque resSuccess : Word

/-- `RES_NACK`: OPEN (R7, R189). -/
opaque resNack : Word

/-- `RES_OUT_OF_RANGE`: OPEN; "a claim may not assume that they differ" (R189). -/
opaque resOutOfRange : Word

/-- `IRQ_SINK`, the host interrupt input the output drives; `none` is "not connected" (60_exceptions.md R227). -/
opaque irqSink : Option Nat

/-- `draw_byte()` in a step: the counter and the place in the step name the draw (R9). A free value: notes/assumptions/5.md. -/
opaque drawByte : Nat → Nat → Byte

/-- `draw_bit()` in a step (R9). A free value: notes/assumptions/5.md. -/
opaque drawBit : Nat → Nat → Bit

/-- `ack_oracle(trace, b)` as a draw of a completion step (R152). A free value: notes/assumptions/6.md. -/
opaque ackOracle : Nat → List BusEvent → Byte → Bit

/-- `data_oracle(trace)` as a draw of a completion step (R152). A free value: notes/assumptions/6.md. -/
opaque dataOracle : Nat → List BusEvent → Byte

/-- Whether the controller moves, where both agents could and `moves` names nobody (R70, R142). A free value: notes/assumptions/7.md. -/
opaque controllerMoves : Nat → Bool

/-- What a host variable that nothing assigned reads as: the spec is silent. A free value: notes/assumptions/11.md. -/
opaque unassigned : Nat → Nat → Word

/-- What a host expression's division by zero gives: the spec states no quotient. A free value: notes/assumptions/12.md. -/
opaque divByZero : Word → Word

/-- What a host expression's remainder by zero gives. A free value: notes/assumptions/12.md. -/
opaque modByZero : Word → Word

end Config

end Sys2Proof
end

