-- ==== Sys2Proof/Syntax.lean ====
section
/-! DEFINITION. The admitted host accesses (30_encoding.md R87), one constructor per row of spec/opcode_table.json. -/

namespace Sys2Proof

/-- One admitted host access. `d` is the DATA byte of a write; `iack` is the IACK bit of a command byte, free in these forms (R131). -/
inductive Instr where
  | rdPrerlo
  | wrPrerlo (d : Byte)
  | rdPrerhi
  | wrPrerhi (d : Byte)
  | rdCtr
  | wrCtr (d : Byte)
  | rdRxr
  | wrTxr (d : Byte)
  | rdSr
  | crNop
  | crIack
  | crSto (iack : Bool)
  | crWr (iack : Bool)
  | crWrSto (iack : Bool)
  | crStaWr (iack : Bool)
  | crStaWrSto (iack : Bool)
  | crRd (iack : Bool)
  | crRdAck (iack : Bool)
  | crRdSto (iack : Bool)
  | crRdAckSto (iack : Bool)
  deriving DecidableEq, Repr

end Sys2Proof
end

