-- ==== Sys2Proof/WellFormed.lean ====
section
/-! DEFINITION. Which terms of Instr are admitted accesses: the one operand check of the opcode table is that a CTR write has its reserved
bits `d[5:0] = 0` (R81, R91, R115). -/

namespace Sys2Proof

/-- The operand check of R87's rows. -/
def Instr.wellFormed (i : Instr) : Bool :=
  match i with
  | .wrCtr d => byteField d Config.layout.ctrResLo Config.layout.ctrResLen == 0
  | .rdPrerlo | .wrPrerlo _ | .rdPrerhi | .wrPrerhi _ | .rdCtr | .rdRxr | .wrTxr _ | .rdSr => true
  | .crNop | .crIack | .crSto _ | .crWr _ | .crWrSto _ | .crStaWr _ | .crStaWrSto _ => true
  | .crRd _ | .crRdAck _ | .crRdSto _ | .crRdAckSto _ => true

/-- An admitted access. -/
abbrev Instr.WellFormed (i : Instr) : Prop := i.wellFormed = true

end Sys2Proof
end

