-- ==== Sys2Proof/Decode.lean ====
section
/-! DEFINITION. Decoding an access word (30_encoding.md R80 to R83, R87 to R91), total, rejecting by name; the command record of a command
byte (R89); and, after it, the encoder, written from the same fields. -/

namespace Sys2Proof

/-- The byte whose bit `p` is `f p`. -/
def byteOfBits (f : Nat → Bit) : Byte :=
  f 7 ++ (f 6 ++ (f 5 ++ (f 4 ++ (f 3 ++ (f 2 ++ (f 1 ++ f 0))))))

/-- Bit `p` of a byte. -/
def byteBit (d : Byte) (p : Nat) : Bool := d.getLsbD p

/-- The `W` field, bit 11: 1 = write (R80). -/
def AccessWord.isWrite (w : AccessWord) : Bool := w.getLsbD 11

/-- The `OFF` field, bits 10:8 (R80). -/
def AccessWord.offset (w : AccessWord) : Nat := (w.extractLsb' 8 3).toNat

/-- The `DATA` field, bits 7:0 (R80). -/
def AccessWord.data (w : AccessWord) : Byte := w.extractLsb' 0 8

/-- Are CTR's reserved bits set (R81, R91)? -/
def ctrReserved (d : Byte) : Bool := byteField d Config.layout.ctrResLo Config.layout.ctrResLen != 0

/-- Are CR's reserved bits set (R82, R90)? -/
def crReserved (d : Byte) : Bool := byteField d Config.layout.crResLo Config.layout.crResLen != 0

/-- `cmd(d)`, the command record of a command byte (R89). -/
def cmdOfByte (d : Byte) : Cmd where
  sta := byteBit d Config.layout.crSta
  sto := byteBit d Config.layout.crSto
  rd := byteBit d Config.layout.crRd
  wr := byteBit d Config.layout.crWr
  ack := byteBit d Config.layout.crAck

/-- The command record of CR_NOP and CR_IACK: "every field false" (R89). -/
def emptyCommand : Cmd where
  sta := false
  sto := false
  rd := false
  wr := false
  ack := false

/-- Does the command start bus activity (R119)? CR_NOP and CR_IACK do not (R120, R121). -/
def Cmd.starts (c : Cmd) : Bool := c.sta || c.sto || c.rd || c.wr

/-- The combinations of command bits the decoder does not refuse (R88, R90). -/
def Cmd.admitted (c : Cmd) : Bool :=
  !(c.rd && c.wr) && !(c.sta && !c.wr) && !(c.ack && !c.rd)

/-- The IACK bit of a command byte (R82). -/
def iackOfByte (d : Byte) : Bool := byteBit d Config.layout.crIack

/-- Why an access word is refused (R90, R91). -/
inductive Reject where
  /-- `OFF ≥ 5`: no register there (R91). -/
  | noRegister
  /-- A read word with DATA ≠ 0: no such access exists (R91). -/
  | readWithData
  /-- A CTR write with a reserved control bit set (R91). -/
  | ctrReservedBits
  /-- A command byte with a reserved bit set (R90). -/
  | crReservedBits
  /-- RD and WR (R90). -/
  | readAndWrite
  /-- STA with neither RD nor WR (R90). -/
  | startAlone
  /-- STA with RD (R90). -/
  | startWithRead
  /-- ACK without RD (R90). -/
  | ackWithoutRead
  deriving DecidableEq, Repr

/-- The register a read word reaches (R88, `readOf`). -/
def decodeRead (k : Nat) : Except Reject Instr :=
  match k with
  | 0 => .ok .rdPrerlo
  | 1 => .ok .rdPrerhi
  | 2 => .ok .rdCtr
  | 3 => .ok .rdRxr
  | 4 => .ok .rdSr
  | _ => .error .noRegister

/-- The admitted command forms, by (STA, STO, RD, WR, ACK) (R88), and the refused ones by name (R90). -/
def decodeCommand (c : Cmd) (iack : Bool) : Except Reject Instr :=
  match c.sta, c.sto, c.rd, c.wr, c.ack with
  | false, false, false, false, false => .ok (if iack then .crIack else .crNop)
  | false, true, false, false, false => .ok (.crSto iack)
  | false, false, false, true, false => .ok (.crWr iack)
  | false, true, false, true, false => .ok (.crWrSto iack)
  | true, false, false, true, false => .ok (.crStaWr iack)
  | true, true, false, true, false => .ok (.crStaWrSto iack)
  | false, false, true, false, false => .ok (.crRd iack)
  | false, false, true, false, true => .ok (.crRdAck iack)
  | false, true, true, false, false => .ok (.crRdSto iack)
  | false, true, true, false, true => .ok (.crRdAckSto iack)
  | _, _, true, true, _ => .error .readAndWrite
  | true, _, true, false, _ => .error .startWithRead
  | true, _, false, false, _ => .error .startAlone
  | _, _, false, _, true => .error .ackWithoutRead

/-- The register a write word reaches, with its data byte (R87, R88). -/
def decodeWrite (k : Nat) (d : Byte) : Except Reject Instr :=
  match k with
  | 0 => .ok (.wrPrerlo d)
  | 1 => .ok (.wrPrerhi d)
  | 2 => if ctrReserved d then .error .ctrReservedBits else .ok (.wrCtr d)
  | 3 => .ok (.wrTxr d)
  | 4 => if crReserved d then .error .crReservedBits else decodeCommand (cmdOfByte d) (iackOfByte d)
  | _ => .error .noRegister

/-- `decode` of R88: the W bit and the offset choose the register (R94), the data byte the command. -/
def decode (w : AccessWord) : Except Reject Instr :=
  if Config.numOffsets ≤ AccessWord.offset w then .error .noRegister
  else if AccessWord.isWrite w then decodeWrite (AccessWord.offset w) (AccessWord.data w)
  else if AccessWord.data w = 0 then decodeRead (AccessWord.offset w) else .error .readWithData

/-- The host's opcode-table words: the instruction decoded from the `nbits` low bits of `w`. An access word has 12 bits and no bit above them. -/
def decodeTableWord (nbits w : Nat) : Option Instr :=
  if w % 2 ^ nbits < 2 ^ 12 then (decode (BitVec.ofNat 12 (w % 2 ^ nbits))).toOption else none

/-! The encoder. -/

/-- The access word `{W, OFF, DATA}` (R80). -/
def accessWord (write : Bool) (k : Nat) (d : Byte) : AccessWord :=
  BitVec.ofBool write ++ (BitVec.ofNat 3 k ++ d)

/-- `HostRead(k)`: the access word `{0, k, 0x00}` (R80, R9). -/
def readWord (k : Nat) : AccessWord := accessWord false k 0

/-- `HostWrite(k, v)`: the access word `{1, k, v[7:0]}`; `v[31:8]` is ignored (R80, R64). -/
def writeWord (k : Nat) (v : Word) : AccessWord := accessWord true k (v.extractLsb' 0 8)

/-- The command byte of a command and an IACK bit (R82). -/
def commandByte (c : Cmd) (iack : Bool) : Byte :=
  byteOfBits fun p =>
    BitVec.ofBool <|
      if p = Config.layout.crSta then c.sta
      else if p = Config.layout.crSto then c.sto
      else if p = Config.layout.crRd then c.rd
      else if p = Config.layout.crWr then c.wr
      else if p = Config.layout.crAck then c.ack
      else if p = Config.layout.crIack then iack
      else false

/-- The command and the IACK bit that an admitted CR write carries (R89, R120 to R130). -/
def Instr.command (i : Instr) : Option (Cmd × Bool) :=
  match i with
  | .crNop => some (emptyCommand, false)
  | .crIack => some (emptyCommand, true)
  | .crSto a => some (⟨false, true, false, false, false⟩, a)
  | .crWr a => some (⟨false, false, false, true, false⟩, a)
  | .crWrSto a => some (⟨false, true, false, true, false⟩, a)
  | .crStaWr a => some (⟨true, false, false, true, false⟩, a)
  | .crStaWrSto a => some (⟨true, true, false, true, false⟩, a)
  | .crRd a => some (⟨false, false, true, false, false⟩, a)
  | .crRdAck a => some (⟨false, false, true, false, true⟩, a)
  | .crRdSto a => some (⟨false, true, true, false, false⟩, a)
  | .crRdAckSto a => some (⟨false, true, true, false, true⟩, a)
  | .rdPrerlo | .wrPrerlo _ | .rdPrerhi | .wrPrerhi _ | .rdCtr | .wrCtr _ | .rdRxr | .wrTxr _ | .rdSr => none

/-- Is the access a write (R80, R87)? -/
def Instr.isWrite (i : Instr) : Bool :=
  match i with
  | .rdPrerlo | .rdPrerhi | .rdCtr | .rdRxr | .rdSr => false
  | .wrPrerlo _ | .wrPrerhi _ | .wrCtr _ | .wrTxr _ => true
  | .crNop | .crIack | .crSto _ | .crWr _ | .crWrSto _ | .crStaWr _ | .crStaWrSto _ => true
  | .crRd _ | .crRdAck _ | .crRdSto _ | .crRdAckSto _ => true

/-- The word offset the access reaches (R21, R87). -/
def Instr.offset (i : Instr) : Nat :=
  match i with
  | .rdPrerlo | .wrPrerlo _ => 0
  | .rdPrerhi | .wrPrerhi _ => 1
  | .rdCtr | .wrCtr _ => 2
  | .rdRxr | .wrTxr _ => 3
  | .rdSr | .crNop | .crIack | .crSto _ | .crWr _ | .crWrSto _ | .crStaWr _ | .crStaWrSto _ => 4
  | .crRd _ | .crRdAck _ | .crRdSto _ | .crRdAckSto _ => 4

/-- The DATA byte of the access: 0 for a read (R80), the command byte for a CR write (R82). -/
def Instr.dataByte (i : Instr) : Byte :=
  match i with
  | .wrPrerlo d | .wrPrerhi d | .wrCtr d | .wrTxr d => d
  | .rdPrerlo | .rdPrerhi | .rdCtr | .rdRxr | .rdSr => 0
  | .crNop | .crIack | .crSto _ | .crWr _ | .crWrSto _ | .crStaWr _ | .crStaWrSto _
  | .crRd _ | .crRdAck _ | .crRdSto _ | .crRdAckSto _ =>
    match i.command with
    | some (c, iack) => commandByte c iack
    | none => 0

/-- The access word of an instruction (R80, R87). -/
def encode (i : Instr) : AccessWord := accessWord i.isWrite i.offset i.dataByte

end Sys2Proof
end

