-- ==== Sys2Proof/Machine/State.lean ====
section
/-! DEFINITION. The machine's state as plain data: the controller (10_state.md R37), the host agent and its programs (30_encoding.md R96 to
R100, 42_transactions.md), the inputs from outside, and the reasons a step can stop. -/

namespace Sys2Proof.Machine

/-- The registers that hold no value until something writes them and that the host can read (R110, R112, R116). -/
inductive UnwrittenReg where
  | prerlo
  | prerhi
  | rxr
  deriving DecidableEq, Repr

/-- The fault reasons the controller records (60_exceptions.md R221). They are entries of `Inst.faults`, not outcomes of a step. -/
inductive FaultReason where
  /-- Read of a register holding no value (R110, R112, R116). -/
  | unwrittenRead (r : UnwrittenReg)
  /-- Prescale write with EN = 1 (R111, R113). -/
  | prescaleWhileEnabled
  /-- EN 1 → 0 with a command in flight or Busy = 1 (R115). -/
  | disableWhileActive
  /-- TXR write while a command with WR is in flight (R117). -/
  | txrWhileWriting
  /-- CR write with EN = 0 (R119). -/
  | commandWhileDisabled
  /-- CR write while a command is in flight (R119). -/
  | commandWhileInFlight
  /-- RD or WR command without STA while Busy = 0 (R119). -/
  | byteWithoutStart
  /-- WR command while TXR holds no value (R119). -/
  | unwrittenTxr
  deriving DecidableEq, Repr

/-- The state of one controller (R37). The Options are the spec's own: `none` is "holds no value" (R9, R38). -/
structure Inst where
  /-- PRERLO (R22). -/
  prerlo : Option Byte
  /-- PRERHI (R22). -/
  prerhi : Option Byte
  /-- CTR.EN (R23). -/
  en : Bool
  /-- CTR.IEN (R23). -/
  ien : Bool
  /-- TXR (R24). -/
  txr : Option Byte
  /-- RXR (R25). -/
  rxr : Option Byte
  /-- SR.RxACK (R28). -/
  rxack : Option Bit
  /-- SR.Busy (R29). -/
  busy : Bool
  /-- SR.IF (R32). -/
  iflag : Bool
  /-- The command in flight (R31). -/
  inflight : Option Cmd
  /-- The bus trace, oldest event first (R33, R140). -/
  trace : List BusEvent
  /-- The faults recorded, oldest first (R34, R220). -/
  faults : List FaultReason
  /-- The refusal mark (R34, R92). -/
  refused : Bool
  deriving DecidableEq, Repr

/-- The sizes a host access can have; only 32 bits is admitted (R65). -/
inductive AccessSize where
  | byte
  | half
  | word
  | double
  deriving DecidableEq, Repr

/-- The registers `W` can name (R96). -/
inductive WriteReg where
  | prerlo
  | prerhi
  | ctr
  | txr
  | cr
  deriving DecidableEq, Repr

/-- The registers `R` can name (R96). -/
inductive ReadReg where
  | prerlo
  | prerhi
  | ctr
  | rxr
  | sr
  deriving DecidableEq, Repr

/-- The operators of host expressions (R8, R97). -/
inductive BinOp where
  | add
  | sub
  | mul
  | div
  | mod
  | and
  | or
  | shl
  | shr
  deriving DecidableEq, Repr

/-- Host expressions: "32-bit unsigned arithmetic" (R97) with the notation of R8; `buf e` is `buf[e]` (R187). DESIGN
CHOICE: R97 gives no grammar for `expr` (notes/assumptions/35.md). -/
inductive Expr where
  | lit (v : Word)
  | var (x : Nat)
  | not (e : Expr)
  | bin (op : BinOp) (a b : Expr)
  /-- `e[p]` (R8). -/
  | bit (e : Expr) (p : Nat)
  /-- `e[7:0]` (R8). -/
  | lowByte (e : Expr)
  | buf (e : Expr)
  deriving DecidableEq, Repr

/-- Host conditions (R97), on unsigned values. DESIGN CHOICE: R97 gives no grammar for `<cond>`; these are the ones the sequences of the spec
use (notes/assumptions/35.md). -/
inductive Cond where
  | eq (a b : Expr)
  | lt (a b : Expr)
  | ge (a b : Expr)
  /-- `e > MAX_LEN`: the caller's buffer does not hold `e` bytes (R185). -/
  | exceedsBuffer (e : Expr)
  deriving DecidableEq, Repr

/-- Host statements (R96, R97). A target is the index of a statement: "the host's `pc` is the index of the next statement". -/
inductive Stmt where
  /-- The host access with this access word (R80). -/
  | access (w : AccessWord)
  /-- `W REG, e` (R96). -/
  | write (r : WriteReg) (e : Expr)
  /-- `R REG -> x` (R96). -/
  | read (r : ReadReg) (x : Nat)
  /-- `MemWrite(a, size, e)` at a byte address of the host's data space (R9, R64). -/
  | memWrite (a : Nat) (size : AccessSize) (e : Expr)
  /-- `x <- MemRead(a, size)` (R9, R64). -/
  | memRead (a : Nat) (size : AccessSize) (x : Nat)
  /-- `x <- e`. -/
  | assign (x : Nat) (e : Expr)
  /-- `buf[k] <- e[7:0]` (R186). -/
  | store (k e : Expr)
  | goto (l : Nat)
  | ifGoto (c : Cond) (l : Nat)
  /-- `return`, with or without a result. -/
  | ret (e : Option Expr)
  /-- `refuse(reason)` in a host sequence (R9, R181, R185). -/
  | refuse
  deriving DecidableEq, Repr

/-- The driver's operations (42_transactions.md R182 to R187), each with its operands; READ and WRITE carry the caller's buffer. -/
inductive Call where
  | enable (i : Word)
  | setClock (i : Word) (baud : Nat)
  | disable (i : Word)
  | read (i addr len : Word) (buf : List Byte)
  | write (i addr : Word) (buf : List Byte) (len : Word)
  deriving DecidableEq, Repr

/-- What a finished program or call gave its caller: the result, if it returns one (R189), and the buffer as it was left. -/
structure CallResult where
  value : Option Word
  buf : List Byte
  deriving DecidableEq, Repr

/-- The states of the transaction state machine (R190). -/
inductive TxnState where
  | idle
  | addressPhase
  | dataPhase (k : Nat)
  | aborted
  | complete
  deriving DecidableEq, Repr

/-- The host agent: the program it runs, its pc and variables (R97), the caller's buffer (R186), the calls still to make, what finished
programs returned, and the word its last read access returned (R64). -/
structure HostAgent where
  program : List Stmt
  pc : Nat
  vars : List (Nat × Word)
  buf : List Byte
  current : Option Call
  calls : List Call
  results : List CallResult
  readData : Word
  deriving DecidableEq, Repr

/-- Who moves in a step. -/
inductive Move where
  /-- The host agent (R97). -/
  | host
  /-- The controller's completion step (R141). -/
  | controller
  /-- A second host agent accesses the instance: refused (R72, D33). -/
  | otherHost
  /-- A reset in the middle of the run: refused (R250, D34). -/
  | midRunReset
  deriving DecidableEq, Repr

/-- The machine: the one instance of N = 1 (R7, R37), the host agent, the inputs from outside (`moves`, `slaveAcks`, `slaveBytes`: the
model's own, notes/assumptions/6.md and 7.md) and the counter of the free values (the model's own, notes/assumptions/5.md). -/
structure State where
  inst : Inst
  host : HostAgent
  moves : List Move
  slaveAcks : List Bit
  slaveBytes : List Byte
  draws : Nat
  deriving DecidableEq, Repr

/-- Why a step stops with a fault. -/
inductive Fault where
  /-- Raised by `step`, by every meaning and by the completion in a state with a recorded fault: the access that records it is a next state
  (R220), and then "neither the host agent nor the controller's completion step has a further step" (R222, decision D27). Safe. -/
  | quiescentFaulted
  /-- Raised by `step`, by every meaning and by the completion in a state with the refusal mark: no agent has a further step (R222, decision
  D27). Safe. -/
  | quiescentRefused
  /-- Raised by a completion whose write phase finds no byte in TXR, which R145 rules out: only in states no run reaches. Safe. -/
  | transmitEmpty
  deriving DecidableEq, Repr

/-- Why a step has no meaning in this model. -/
inductive Refusal where
  /-- Raised by `exec`'s arm of an instruction with no meaning yet: none is left. Safe. -/
  | notModelled (mnemonic : String)
  /-- Raised by a host access outside the controller's window: the rest of the host map is the platform's, "not fixed here" (R61). Safe. -/
  | platformAddress
  deriving DecidableEq, Repr

/-- The controller right after reset (R38, R250). -/
def Inst.reset : Inst where
  prerlo := none
  prerhi := none
  en := false
  ien := false
  txr := none
  rxr := none
  rxack := none
  busy := false
  iflag := false
  inflight := none
  trace := []
  faults := []
  refused := false

/-- The host agent at the start of a run, with nothing placed. DESIGN CHOICE: notes/assumptions/14.md, 18.md, 22.md. -/
def HostAgent.reset : HostAgent where
  program := []
  pc := 0
  vars := []
  buf := []
  current := none
  calls := []
  results := []
  readData := 0

/-- The machine right after reset: the controller as R38 says, nothing placed by the outside world. -/
def State.reset : State where
  inst := Inst.reset
  host := HostAgent.reset
  moves := []
  slaveAcks := []
  slaveBytes := []
  draws := 0

end Sys2Proof.Machine
end

