-- ==== Sys2Proof/Machine/Ops.lean ====
section
/-! DEFINITION. The named operations over the state: the primitives of R9 (`REG <- v`, `emit`, `raise Fault`, `refuse`), the guard every
access passes, what a read returns, and the slaves' answers. -/

namespace Sys2Proof.Machine

/-! Register writes, `REG <- v` (R9). -/

def State.setPrerlo (s : State) (d : Byte) : State := { s with inst := { s.inst with prerlo := some d } }

def State.setPrerhi (s : State) (d : Byte) : State := { s with inst := { s.inst with prerhi := some d } }

def State.setCtr (s : State) (en ien : Bool) : State := { s with inst := { s.inst with en := en, ien := ien } }

def State.setTxr (s : State) (d : Byte) : State := { s with inst := { s.inst with txr := some d } }

def State.setRxr (s : State) (d : Byte) : State := { s with inst := { s.inst with rxr := some d } }

def State.setRxack (s : State) (a : Bit) : State := { s with inst := { s.inst with rxack := some a } }

def State.setBusy (s : State) (b : Bool) : State := { s with inst := { s.inst with busy := b } }

def State.setIf (s : State) (b : Bool) : State := { s with inst := { s.inst with iflag := b } }

def State.setInflight (s : State) (c : Option Cmd) : State := { s with inst := { s.inst with inflight := c } }

/-- `emit(e)`: append a bus event to the trace (R9, R140). -/
def State.emit (s : State) (e : BusEvent) : State := { s with inst := { s.inst with trace := s.inst.trace ++ [e] } }

/-- `raise Fault(r)`: append the reason to `faults`, and nothing else (R220). The controller has no trap entry beyond it (R229). -/
def State.raise (s : State) (r : FaultReason) : State := { s with inst := { s.inst with faults := s.inst.faults ++ [r] } }

/-- `refuse(reason)`: set the refusal mark, and nothing else (R92). -/
def State.refuse (s : State) : State := { s with inst := { s.inst with refused := true } }

/-- Move the counter of the free values on, so that the next step draws afresh (notes/assumptions/5.md). -/
def State.bumpDraws (s : State) : State := { s with draws := s.draws + 1 }

/-- `draw24`, bits 31:8 of a read word: three `draw_byte` results (R64). -/
def State.draw24 (s : State) : BitVec 24 :=
  Config.drawByte s.draws 0 ++ (Config.drawByte s.draws 1 ++ Config.drawByte s.draws 2)

/-- A read access returns `{draw24, b}` to the host and changes no state of the controller (R64, R68). -/
def State.answer (s : State) (b : Byte) : State :=
  { s with host := { s.host with readData := s.draw24 ++ b }, draws := s.draws + 1 }

/-- A read of a register that may hold no value: the byte it holds, else `Fault(UnwrittenRead)`, the spec's own arm for
`none` (R110, R112, R116; R38 and decision D7 give `none` as the reset value). -/
def State.readHeld (s : State) (r : UnwrittenReg) (held : Option Byte) : State :=
  match held with
  | none => s.raise (.unwrittenRead r)
  | some b => s.answer b

/-! The guard of every access. -/

/-- "An access is performed only while `faults = []` and `refused = false`" (40_register_access.md; R222). -/
def Inst.live (i : Inst) : Bool := i.faults.isEmpty && !i.refused

/-- The outcome in a state in which no agent has a further step (R222). -/
def Inst.quiescence (i : Inst) : Fault := if i.faults.isEmpty then .quiescentRefused else .quiescentFaulted

/-- A step of a live run; a run that is not live has no further step (R222). -/
def State.whileLive (s : State) (o : Host.Outcome State Fault Refusal) : Host.Outcome State Fault Refusal :=
  if s.inst.live then o else .fault s.inst.quiescence

/-- One access of a live run, which takes effect in one step (R67). -/
def State.access (s t : State) : Host.Outcome State Fault Refusal := s.whileLive (.next t)

/-! The slaves' answers: the next input placed from outside, else the oracle of R152 (notes/assumptions/6.md). -/

/-- The slave's acknowledge level for byte `b` (R152, `ack_oracle(trace, b)`). -/
def State.slaveAck (s : State) (b : Byte) : Bit :=
  match s.slaveAcks with
  | a :: _ => a
  | [] => Config.ackOracle s.draws s.inst.trace b

/-- The slave's byte (R152, `data_oracle(trace)`). -/
def State.slaveByte (s : State) : Byte :=
  match s.slaveBytes with
  | b :: _ => b
  | [] => Config.dataOracle s.draws s.inst.trace

/-- The acknowledge input is used up. -/
def State.dropAck (s : State) : State := { s with slaveAcks := s.slaveAcks.tail }

/-- The byte input is used up. -/
def State.dropByte (s : State) : State := { s with slaveBytes := s.slaveBytes.tail }

end Sys2Proof.Machine
end

