-- ==== Sys2Proof/Machine/Operands.lean ====
section
/-! DEFINITION. The operand forms: the fields of a CTR write (R81), the address byte and the prescale halves (R84, R85, R181), the register
offsets of the host syntax (R96), and the target of a host bus access (R60, R64, R65). -/

namespace Sys2Proof.Machine

/-- `EN = DATA[7]` (R81). -/
def ctrEnOf (d : Byte) : Bool := byteBit d Config.layout.ctrEn

/-- `IEN = DATA[6]` (R81). -/
def ctrIenOf (d : Byte) : Bool := byteBit d Config.layout.ctrIen

/-- `addr_byte(address, dir) = ((address << 1) | dir) mod 256`; `dir` 1 = read, 0 = write (R84). -/
def addrByte (address : Nat) (dir : Bit) : Byte := BitVec.ofNat 8 (((address <<< 1) ||| dir.toNat) % 256)

/-- `floor(F_SRC / (5 * baud))` for a given source clock, in unbounded arithmetic (R181). -/
def prescaleOf (fSrc baud : Nat) : Nat := fSrc / (5 * baud)

/-- `prescale(baud)` (R181). -/
def prescale (baud : Nat) : Nat := prescaleOf Config.fSrc baud

/-- `PRERLO = p mod 256` (R85). -/
def prescaleLow (p : Nat) : Byte := BitVec.ofNat 8 (p % 256)

/-- `PRERHI = floor(p / 256) mod 256` (R85). -/
def prescaleHigh (p : Nat) : Byte := BitVec.ofNat 8 (p / 256 % 256)

/-- `PRER = {PRERHI, PRERLO}` (R22). -/
def Inst.prer (i : Inst) : Option (BitVec 16) :=
  match i.prerhi, i.prerlo with
  | some h, some l => some (h ++ l)
  | some _, none => none
  | none, _ => none

/-- `off(REG)` of the write syntax (R96). -/
def WriteReg.offset (r : WriteReg) : Nat :=
  match r with
  | .prerlo => 0
  | .prerhi => 1
  | .ctr => 2
  | .txr => 3
  | .cr => 4

/-- `off(REG)` of the read syntax (R96). -/
def ReadReg.offset (r : ReadReg) : Nat :=
  match r with
  | .prerlo => 0
  | .prerhi => 1
  | .ctr => 2
  | .rxr => 3
  | .sr => 4

/-- The bytes an access of a size covers. -/
def AccessSize.bytes (z : AccessSize) : Nat :=
  match z with
  | .byte => 1
  | .half => 2
  | .word => 4
  | .double => 8

/-- Where a host bus access goes. -/
inductive BusTarget where
  /-- An aligned 32-bit access at word offset `k ≤ 4` (R65). -/
  | register (k : Nat)
  /-- It touches the controller's window in another way: refused (R65). -/
  | illegal
  /-- It does not touch the window: the platform's (R61). -/
  | platform
  deriving DecidableEq, Repr

/-- The target of an access of `size` at byte address `a`, for a block at `lo`. "An access must be exactly a 32-bit access at `BASE[i] + 4*k`
with `0 ≤ k ≤ 4`"; the window that the controller refuses accesses to reaches to `BASE[i] + 31` (R65). DESIGN CHOICE: an address is a natural
number of any size, since R61 fixes no width, so nothing wraps (notes/assumptions/31.md); "not aligned to 4" is measured from the block's base,
since the spec does not say that `BASE[i]` is a multiple of 4 (notes/assumptions/32.md). DEDUCED: an access of 64 bits, and one over the lower
edge of the window, are refused (notes/assumptions/27.md, 28.md). -/
def busTargetAt (lo a : Nat) (size : AccessSize) : BusTarget :=
  if a + size.bytes ≤ lo ∨ lo + Config.stride * Config.windowOffsets ≤ a then .platform
  else if size = .word ∧ lo ≤ a ∧ (a - lo) % Config.stride = 0 ∧ (a - lo) / Config.stride < Config.numOffsets then
    .register ((a - lo) / Config.stride)
  else .illegal

/-- The target in the window of instance 0, the only one (R7). -/
def busTarget (a : Nat) (size : AccessSize) : BusTarget := busTargetAt (Config.base 0) a size

/-- The byte address of word offset `k` of instance `i`: `BASE[i] + 4*k` (R60), a natural number (notes/assumptions/31.md). -/
def registerAddress (i k : Nat) : Nat := Config.base i + Config.stride * k

end Sys2Proof.Machine
end

