-- ==== Sys2Proof/Machine/Flags.lean ====
section
/-! DEFINITION. The status flags as a read sees them (R118), the bytes that reads of CTR and SR return (R83, R114, R118), and the interrupt
output (R226). A draw of bit `p` of a read is place `p` of the step's bit draws. -/

namespace Sys2Proof.Machine

/-- `TIPv` (R30, R118): 1 with a read or write command in flight, a draw with a stop alone, else 0. -/
def State.tipValue (s : State) : Bit :=
  match s.inst.inflight with
  | none => 0
  | some c => if c.rd || c.wr then 1 else Config.drawBit s.draws Config.layout.srTip

/-- `Busyv` (R29, R118): a draw with a command with STA or STO in flight. -/
def State.busyValue (s : State) : Bit :=
  match s.inst.inflight with
  | none => BitVec.ofBool s.inst.busy
  | some c => if c.sta || c.sto then Config.drawBit s.draws Config.layout.srBusy else BitVec.ofBool s.inst.busy

/-- `RxACKv` (R28, R118): a draw with a command in flight, or while RxACK holds no value. -/
def State.rxackValue (s : State) : Bit :=
  match s.inst.inflight with
  | some _ => Config.drawBit s.draws Config.layout.srRxack
  | none =>
    match s.inst.rxack with
    | some a => a
    | none => Config.drawBit s.draws Config.layout.srRxack

/-- Bits 7:0 of a read of SR: `{RxACKv, Busyv, draw4, TIPv, IF}` (R83, R118). -/
def State.srByte (s : State) : Byte :=
  byteOfBits fun p =>
    if p = Config.layout.srRxack then s.rxackValue
    else if p = Config.layout.srBusy then s.busyValue
    else if p = Config.layout.srTip then s.tipValue
    else if p = Config.layout.srIf then BitVec.ofBool s.inst.iflag
    else Config.drawBit s.draws p

/-- Bits 7:0 of a read of CTR: `{EN, IEN, 0b000000}` (R114). -/
def Inst.ctrByte (i : Inst) : Byte :=
  byteOfBits fun p =>
    if p = Config.layout.ctrEn then BitVec.ofBool i.en
    else if p = Config.layout.ctrIen then BitVec.ofBool i.ien
    else 0

/-- Bits 7:0 of a read of RXR that the register answers: a draw while a read command is in flight, else the held byte (R116). -/
def State.rxrRead (s : State) : Option Byte :=
  match s.inst.inflight with
  | some c => if c.rd then some (Config.drawByte s.draws 3) else s.inst.rxr
  | none => s.inst.rxr

/-- The interrupt output: `irq = CTR.IEN ∧ SR.IF` (R226). -/
def Inst.irq (i : Inst) : Bool := i.ien && i.iflag

/-- The interrupt output at its destination, where it is connected: the host's input number and its level (R227). -/
def Inst.irqAtSink (i : Inst) : Option (Nat × Bool) := Config.irqSink.map fun line => (line, i.irq)

end Sys2Proof.Machine
end

