-- ==== Sys2Proof/Machine/Completion.lean ====
section
/-! DEFINITION. The controller's completion step (41_bus_commands.md R141 to R151): the phases of the command in flight, in the order start,
byte, stop, as one atomic step. -/

namespace Sys2Proof.Machine

/-- Start phase: RSTART on a busy bus, START on an idle one; then Busy is 1 (R143). -/
def State.phaseStart (s : State) : State := (s.emit (if s.inst.busy then .rstart else .start)).setBusy true

/-- Write phase of byte `b`: the slave answers, the bus shows TX, and RxACK takes the slave's level (R145, R146). -/
def State.phaseWrite (s : State) (b : Byte) : State :=
  ((s.emit (.tx b (s.slaveAck b))).setRxack (s.slaveAck b)).dropAck

/-- The level the master answers with: 0 sends ACK, 1 sends NACK (R147, D3). -/
def masterAnswer (ack : Bool) : Bit := BitVec.ofBool ack

/-- Read phase: the slave's byte goes to RXR, the bus shows RX, and RxACK becomes a draw (R147, R148). Bit draw 8 of the step. -/
def State.phaseRead (s : State) (ack : Bool) : State :=
  (((s.emit (.rx s.slaveByte (masterAnswer ack))).setRxr s.slaveByte).setRxack (Config.drawBit s.draws 8)).dropByte

/-- Stop phase, whatever the slave answered and whether or not the bus was busy (R149, R150). -/
def State.phaseStop (s : State) : State := (s.emit .stop).setBusy false

/-- The start phase, if the command has STA. -/
def State.startIf (s : State) (c : Cmd) : State := if c.sta then s.phaseStart else s

/-- The write phase, if the command has WR; `none` where TXR holds no byte, which R145 rules out. -/
def State.writeIf (s : State) (c : Cmd) : Option State := if c.wr then s.inst.txr.map s.phaseWrite else some s

/-- The read phase, if the command has RD. -/
def State.readIf (s : State) (c : Cmd) : State := if c.rd then s.phaseRead c.ack else s

/-- The stop phase, if the command has STO. -/
def State.stopIf (s : State) (c : Cmd) : State := if c.sto then s.phaseStop else s

/-- `IF <- 1` (R151) and nothing in flight; the next step draws afresh. -/
def State.finish (s : State) : State := ((s.setIf true).setInflight none).bumpDraws

/-- `complete(c)` (R141). -/
def State.complete (s : State) (c : Cmd) : Host.Outcome State Fault Refusal :=
  match (s.startIf c).writeIf c with
  | some t => .next ((t.readIf c).stopIf c).finish
  | none => .fault .transmitEmpty

/-- The completion step, "enabled exactly when `inflight = some c`, `faults = []` and `refused = false`" (R141). Where no command is in
flight the controller does nothing on the bus (R155); that a controller move there is a step that changes nothing is a DESIGN CHOICE
(notes/assumptions/7.md). -/
def completionStep (s : State) : Host.Outcome State Fault Refusal :=
  s.whileLive
    (match s.inst.inflight with
     | some c => s.complete c
     | none => .next s)

end Sys2Proof.Machine
end

