-- ==== Sys2Proof/Machine/CommandReg.lean ====
section
/-! DEFINITION. The command register (40_register_access.md R119 to R131): the checks and effects of every CR write once, then each admitted
form as its own command. -/

namespace Sys2Proof.Machine

/-- The fault of a CR write of command `c`, in the order R119 checks them; every check precedes every effect. -/
def Inst.commandFault (i : Inst) (c : Cmd) : Option FaultReason :=
  if !i.en then some .commandWhileDisabled
  else if i.inflight.isSome then some .commandWhileInFlight
  else if (c.rd || c.wr) && !c.sta && !i.busy then some .byteWithoutStart
  else if c.wr && i.txr.isNone then some .unwrittenTxr
  else none

/-- `if d[0] = 1 then IF <- 0` (R119, R131). -/
def State.acknowledge (s : State) (iack : Bool) : State := if iack then s.setIf false else s

/-- `if c.sta ∨ c.sto ∨ c.rd ∨ c.wr then inflight <- some c` (R119). -/
def State.issue (s : State) (c : Cmd) : State := if c.starts then s.setInflight (some c) else s

/-- WR_CR of an admitted command byte (R119). -/
def State.writeCommand (s : State) (c : Cmd) (iack : Bool) : State :=
  match s.inst.commandFault c with
  | some r => s.raise r
  | none => (s.acknowledge iack).issue c

/-- CR_NOP (R120). -/
def execCrNop (s : State) : Host.Outcome State Fault Refusal :=
  s.access (s.writeCommand emptyCommand false)

/-- CR_IACK (R121). -/
def execCrIack (s : State) : Host.Outcome State Fault Refusal :=
  s.access (s.writeCommand emptyCommand true)

/-- CR_STO (R122). -/
def execCrSto (iack : Bool) (s : State) : Host.Outcome State Fault Refusal :=
  s.access (s.writeCommand { sta := false, sto := true, rd := false, wr := false, ack := false } iack)

/-- CR_WR (R123). -/
def execCrWr (iack : Bool) (s : State) : Host.Outcome State Fault Refusal :=
  s.access (s.writeCommand { sta := false, sto := false, rd := false, wr := true, ack := false } iack)

/-- CR_WR_STO (R124). -/
def execCrWrSto (iack : Bool) (s : State) : Host.Outcome State Fault Refusal :=
  s.access (s.writeCommand { sta := false, sto := true, rd := false, wr := true, ack := false } iack)

/-- CR_STA_WR (R125). -/
def execCrStaWr (iack : Bool) (s : State) : Host.Outcome State Fault Refusal :=
  s.access (s.writeCommand { sta := true, sto := false, rd := false, wr := true, ack := false } iack)

/-- CR_STA_WR_STO (R126). -/
def execCrStaWrSto (iack : Bool) (s : State) : Host.Outcome State Fault Refusal :=
  s.access (s.writeCommand { sta := true, sto := true, rd := false, wr := true, ack := false } iack)

/-- CR_RD (R127): the master answers ACK, level 0. -/
def execCrRd (iack : Bool) (s : State) : Host.Outcome State Fault Refusal :=
  s.access (s.writeCommand { sta := false, sto := false, rd := true, wr := false, ack := false } iack)

/-- CR_RD_ACK (R128): the master answers NACK, level 1. -/
def execCrRdAck (iack : Bool) (s : State) : Host.Outcome State Fault Refusal :=
  s.access (s.writeCommand { sta := false, sto := false, rd := true, wr := false, ack := true } iack)

/-- CR_RD_STO (R129). -/
def execCrRdSto (iack : Bool) (s : State) : Host.Outcome State Fault Refusal :=
  s.access (s.writeCommand { sta := false, sto := true, rd := true, wr := false, ack := false } iack)

/-- CR_RD_ACK_STO (R130). -/
def execCrRdAckSto (iack : Bool) (s : State) : Host.Outcome State Fault Refusal :=
  s.access (s.writeCommand { sta := false, sto := true, rd := true, wr := false, ack := true } iack)

end Sys2Proof.Machine
end

