-- ==== Sys2Proof/Machine/ControlReg.lean ====
section
/-! DEFINITION. The control register (40_register_access.md R114, R115). -/

namespace Sys2Proof.Machine

/-- RD_CTR (R114). -/
def execRdCtr (s : State) : Host.Outcome State Fault Refusal := s.access (s.answer s.inst.ctrByte)

/-- Is a command in flight, or the bus left open (R115)? -/
def Inst.active (i : Inst) : Bool := i.inflight.isSome || i.busy

/-- WR_CTR (R115). A write with a reserved bit set is refused before any fault (R91, R228); the decoder gives none. -/
def execWrCtr (d : Byte) (s : State) : Host.Outcome State Fault Refusal :=
  s.access
    (if ctrReserved d then s.refuse
     else if s.inst.en && !ctrEnOf d && s.inst.active then s.raise .disableWhileActive
     else s.setCtr (ctrEnOf d) (ctrIenOf d))

end Sys2Proof.Machine
end

