-- ==== Sys2Proof/Machine/DataRegs.lean ====
section
/-! DEFINITION. The data registers (40_register_access.md R116, R117). -/

namespace Sys2Proof.Machine

/-- RD_RXR (R116). -/
def execRdRxr (s : State) : Host.Outcome State Fault Refusal := s.access (s.readHeld .rxr s.rxrRead)

/-- Is a command with WR in flight (R117)? -/
def Inst.writing (i : Inst) : Bool :=
  match i.inflight with
  | some c => c.wr
  | none => false

/-- WR_TXR (R117). -/
def execWrTxr (d : Byte) (s : State) : Host.Outcome State Fault Refusal :=
  s.access (if s.inst.writing then s.raise .txrWhileWriting else s.setTxr d)

end Sys2Proof.Machine
end

