-- ==== Sys2Proof/Machine/PrescaleRegs.lean ====
section
/-! DEFINITION. The prescale registers (40_register_access.md R110 to R113). -/

namespace Sys2Proof.Machine

/-- RD_PRERLO (R110). -/
def execRdPrerlo (s : State) : Host.Outcome State Fault Refusal := s.access (s.readHeld .prerlo s.inst.prerlo)

/-- RD_PRERHI (R112). -/
def execRdPrerhi (s : State) : Host.Outcome State Fault Refusal := s.access (s.readHeld .prerhi s.inst.prerhi)

/-- WR_PRERLO (R111). -/
def execWrPrerlo (d : Byte) (s : State) : Host.Outcome State Fault Refusal :=
  s.access (if s.inst.en then s.raise .prescaleWhileEnabled else s.setPrerlo d)

/-- WR_PRERHI (R113). -/
def execWrPrerhi (d : Byte) (s : State) : Host.Outcome State Fault Refusal :=
  s.access (if s.inst.en then s.raise .prescaleWhileEnabled else s.setPrerhi d)

end Sys2Proof.Machine
end

