-- ==== Sys2Proof/Machine/StatusReg.lean ====
section
/-! DEFINITION. The status register (40_register_access.md R118). -/

namespace Sys2Proof.Machine

/-- RD_SR (R118). -/
def execRdSr (s : State) : Host.Outcome State Fault Refusal := s.access (s.answer s.srByte)

end Sys2Proof.Machine
end

