-- ==== Sys2Proof/Machine/Dispatch.lean ====
section
/-! DEFINITION. The meaning of each admitted host access, one arm per row of the opcode table (R87). -/

namespace Sys2Proof.Machine

def exec (i : Instr) (s : State) : Host.Outcome State Fault Refusal :=
  match i with
  | .rdPrerlo => Sys2Proof.Machine.execRdPrerlo s
  | .wrPrerlo d => Sys2Proof.Machine.execWrPrerlo d s
  | .rdPrerhi => Sys2Proof.Machine.execRdPrerhi s
  | .wrPrerhi d => Sys2Proof.Machine.execWrPrerhi d s
  | .rdCtr => Sys2Proof.Machine.execRdCtr s
  | .wrCtr d => Sys2Proof.Machine.execWrCtr d s
  | .rdRxr => Sys2Proof.Machine.execRdRxr s
  | .wrTxr d => Sys2Proof.Machine.execWrTxr d s
  | .rdSr => Sys2Proof.Machine.execRdSr s
  | .crNop => Sys2Proof.Machine.execCrNop s
  | .crIack => Sys2Proof.Machine.execCrIack s
  | .crSto iack => Sys2Proof.Machine.execCrSto iack s
  | .crWr iack => Sys2Proof.Machine.execCrWr iack s
  | .crWrSto iack => Sys2Proof.Machine.execCrWrSto iack s
  | .crStaWr iack => Sys2Proof.Machine.execCrStaWr iack s
  | .crStaWrSto iack => Sys2Proof.Machine.execCrStaWrSto iack s
  | .crRd iack => Sys2Proof.Machine.execCrRd iack s
  | .crRdAck iack => Sys2Proof.Machine.execCrRdAck iack s
  | .crRdSto iack => Sys2Proof.Machine.execCrRdSto iack s
  | .crRdAckSto iack => Sys2Proof.Machine.execCrRdAckSto iack s

end Sys2Proof.Machine
end

