-- ==== Sys2Proof/Machine/Sequences.lean ====
section
/-! DEFINITION. The pseudo-instructions (30_encoding.md R98 to R100) and the reference host sequences (42_transactions.md R180 to R191): each
call of the driver as a host program, written with labels and assembled to statement indices, and the transaction state machine (R190). -/

namespace Sys2Proof.Machine

/-! Host expressions for the bit names of R96. -/

/-- The host's 32-bit constant. -/
def num (n : Nat) : Expr := .lit (BitVec.ofNat 32 n)

/-- `STA`, `STO`, `RD`, `WR`, `ACK`, `IACK` joined by `|`: the command byte of a command, as a host constant (R96). -/
def crByte (c : Cmd) (iack : Bool) : Expr := .lit ((commandByte c iack).setWidth 32)

/-- The EN bit of CTR as a host constant. -/
def ctrEnByte : Expr := num (2 ^ Config.layout.ctrEn)

/-! The variables of the sequences: "local to the expansion" (R100). -/

/-- `s`, the status word. -/
def varS : Nat := 0

/-- `v`, the received word. -/
def varV : Nat := 1

/-- `p`, the prescale. -/
def varP : Nat := 2

/-- `k`, the byte counter. -/
def varK : Nat := 3

/-! Assembling labelled statements (R97). -/

/-- A line of a sequence: a label, or a statement whose targets are labels. -/
inductive Line where
  | mark (l : Nat)
  | code (t : Stmt)
  deriving DecidableEq, Repr

/-- The index of the statement a label names: the number of statements before it. DESIGN CHOICE: of two marks of one label the first counts,
and a label that no line marks is the index past the last statement; R97 says nothing of either (notes/assumptions/38.md). -/
def labelIndex (l : Nat) (lines : List Line) : Nat :=
  match lines with
  | [] => 0
  | .mark m :: rest => if m = l then 0 else labelIndex l rest
  | .code _ :: rest => labelIndex l rest + 1

/-- The statement with its target looked up. -/
def Stmt.resolve (lines : List Line) (t : Stmt) : Stmt :=
  match t with
  | .goto l => .goto (labelIndex l lines)
  | .ifGoto c l => .ifGoto c (labelIndex l lines)
  | .access w => .access w
  | .write r e => .write r e
  | .read r x => .read r x
  | .memWrite a z e => .memWrite a z e
  | .memRead a z x => .memRead a z x
  | .assign x e => .assign x e
  | .store k e => .store k e
  | .ret e => .ret e
  | .refuse => .refuse

/-- The statement of a line, if it is one. -/
def Line.stmt (lines : List Line) (ln : Line) : Option Stmt :=
  match ln with
  | .mark _ => none
  | .code t => some (Stmt.resolve lines t)

/-- The program of a labelled text (R97). -/
def assemble (lines : List Line) : List Stmt := lines.filterMap (Line.stmt lines)

/-! The labels of the sequences. -/

def lblWait0 : Nat := 0
def lblWait1 : Nat := 1
def lblLoop : Nat := 2
def lblLast : Nat := 3
def lblDone : Nat := 4
def lblNack : Nat := 5
def lblOutOfRange : Nat := 6
def lblRefuse : Nat := 7
def lblAddress : Nat := 8
def lblAddressEnd : Nat := 9
def lblData : Nat := 10
def lblDataEnd : Nat := 11
def lblSuccess : Nat := 12

/-! Pseudo-instructions. -/

/-- `WAIT_TIP` (R98): poll SR until TIP reads 0. -/
def waitTip (l : Nat) : List Line :=
  [.mark l,
   .code (.read .sr varS),
   .code (.ifGoto (.eq (.bit (.var varS) Config.layout.srTip) (num 1)) l)]

/-- `CHECK_ACK <label>` (R99): go to the label if RxACK reads 1. -/
def checkAck (l : Nat) : List Line :=
  [.code (.read .sr varS),
   .code (.ifGoto (.eq (.bit (.var varS) Config.layout.srRxack) (num 1)) l)]

/-- `if i ≥ N then ...` (R180). -/
def boundsCheck (i : Word) : List Line := [.code (.ifGoto (.ge (.lit i) (num Config.numInstances)) lblOutOfRange)]

/-- The writes of R182 and R183, in their fixed order (R253): CTR ← 0, the prescale halves, CTR ← EN. -/
def configureLines (i : Word) (p : Nat) : List Line :=
  List.flatten
    [boundsCheck i,
     [.code (.assign varP (num p)),
      .code (.write .ctr (num 0)),
      .code (.write .prerlo (.bin .mod (.var varP) (num 256))),
      .code (.write .prerhi (.bin .mod (.bin .div (.var varP) (num 256)) (num 256))),
      .code (.write .ctr ctrEnByte),
      .mark lblOutOfRange,
      .code (.ret none)]]

/-- `ENABLE i` (R182). -/
def enableLines (i : Word) : List Line := configureLines i (prescale Config.baudDefault)

/-- `SET_CLOCK i, baud` (R183); `baud = 0` is refused, after the index check (R180, R181). -/
def setClockLines (i : Word) (baud : Nat) : List Line :=
  if baud = 0 then List.flatten [boundsCheck i, [.code .refuse, .mark lblOutOfRange, .code (.ret none)]]
  else configureLines i (prescale baud)

/-- `DISABLE i` (R184): one stop, no poll, EN stays. -/
def disableLines (i : Word) : List Line :=
  List.flatten
    [boundsCheck i,
     [.code (.write .cr (crByte { sta := false, sto := true, rd := false, wr := false, ack := false } false)),
      .mark lblOutOfRange,
      .code (.ret none)]]

/-- The checks of R180 and R185, the index first. -/
def transferChecks (i addr len : Word) : List Line :=
  List.flatten
    [boundsCheck i,
     [.code (.ifGoto (.ge (.lit addr) (num 128)) lblRefuse),
      .code (.ifGoto (.eq (.lit len) (num 0)) lblRefuse),
      .code (.ifGoto (.exceedsBuffer (.lit len)) lblRefuse)]]

/-- The address phase of R186 and R187: wait, address byte with direction `dir`, start+write, wait, check. -/
def addressLines (addr : Word) (dir : Nat) : List Line :=
  List.flatten
    [waitTip lblWait0,
     [.code (.write .txr (.bin .mod (.bin .or (.bin .shl (.lit addr) (num 1)) (num dir)) (num 256))),
      .code (.write .cr (crByte { sta := true, sto := false, rd := false, wr := true, ack := false } false)),
      .mark lblAddress],
     waitTip lblWait1,
     checkAck lblNack,
     [.mark lblAddressEnd]]

/-- The ends of R186 and R187. -/
def transferEnds : List Line :=
  [.mark lblSuccess,
   .code (.ret (some (.lit Config.resSuccess))),
   .mark lblNack,
   .code (.ret (some (.lit Config.resNack))),
   .mark lblOutOfRange,
   .code (.ret (some (.lit Config.resOutOfRange))),
   .mark lblRefuse,
   .code .refuse]

/-- `k = len - 1`. -/
def isLastByte (len : Word) : Cond := .eq (.var varK) (.bin .sub (.lit len) (num 1))

/-- `k <- k + 1; if k < len goto loop`. -/
def nextByte (len : Word) : List Line :=
  [.code (.assign varK (.bin .add (.var varK) (num 1))),
   .code (.ifGoto (.lt (.var varK) (.lit len)) lblLoop)]

/-- `READ i, addr, len, buf` (R186). -/
def readLines (i addr len : Word) : List Line :=
  List.flatten
    [transferChecks i addr len,
     addressLines addr 1,
     [.code (.assign varK (num 0)),
      .mark lblLoop,
      .code (.ifGoto (isLastByte len) lblLast),
      .code (.write .cr (crByte { sta := false, sto := false, rd := true, wr := false, ack := false } false)),
      .mark lblData,
      .code (.goto lblDone),
      .mark lblLast,
      .code (.write .cr (crByte { sta := false, sto := true, rd := true, wr := false, ack := true } false))],
     waitTip lblDone,
     [.mark lblDataEnd,
      .code (.read .rxr varV),
      .code (.store (.var varK) (.lowByte (.var varV)))],
     nextByte len,
     transferEnds]

/-- `WRITE i, addr, buf, len` (R187). -/
def writeLines (i addr len : Word) : List Line :=
  List.flatten
    [transferChecks i addr len,
     addressLines addr 0,
     [.code (.assign varK (num 0)),
      .mark lblLoop,
      .code (.write .txr (.buf (.var varK))),
      .code (.ifGoto (isLastByte len) lblLast),
      .code (.write .cr (crByte { sta := false, sto := false, rd := false, wr := true, ack := false } false)),
      .mark lblData,
      .code (.goto lblDone),
      .mark lblLast,
      .code (.write .cr (crByte { sta := false, sto := true, rd := false, wr := true, ack := false } false))],
     waitTip lblDone,
     checkAck lblNack,
     [.mark lblDataEnd],
     nextByte len,
     transferEnds]

/-- The text of a call (R100). -/
def Call.lines (c : Call) : List Line :=
  match c with
  | .enable i => enableLines i
  | .setClock i baud => setClockLines i baud
  | .disable i => disableLines i
  | .read i addr len _ => readLines i addr len
  | .write i addr _ len => writeLines i addr len

/-- The host program of a call (R100). -/
def Call.program (c : Call) : List Stmt := assemble c.lines

/-- The caller's buffer of a call: READ and WRITE bring one. -/
def Call.buffer (c : Call) : List Byte :=
  match c with
  | .read _ _ _ buf => buf
  | .write _ _ buf _ => buf
  | .enable _ => []
  | .setClock _ _ => []
  | .disable _ => []

/-! The transaction state machine (R190), as positions in the sequences. -/

/-- Is the pc at or after label `a` and before label `b`? -/
def between (lines : List Line) (a b pc : Nat) : Bool := labelIndex a lines ≤ pc && pc < labelIndex b lines

/-- The state at position `pc` of a transfer with byte counter `k`; `none` at the positions R190's table leaves out, between two of its rows
(DEDUCED: notes/assumptions/21.md), and at `return RES_OUT_OF_RANGE` and the refusal, which the table does not list (DESIGN CHOICE:
notes/assumptions/34.md). -/
def txnStateAt (lines : List Line) (pc k : Nat) : Option TxnState :=
  if pc < labelIndex lblAddress lines then some .idle
  else if pc < labelIndex lblAddressEnd lines then some .addressPhase
  else if between lines lblData lblLast pc || between lines lblDone lblDataEnd pc then some (.dataPhase k)
  else if pc = labelIndex lblSuccess lines then some .complete
  else if pc = labelIndex lblNack lines then some .aborted
  else none

end Sys2Proof.Machine
end

