-- ==== Sys2Proof/Machine/HostAgent.lean ====
section
/-! DEFINITION. The host agent (30_encoding.md R96, R97; 20_memory.md R64, R65; 42_transactions.md): evaluating expressions, performing one
statement, making the next call; and who moves in a step (R70, R142). -/

namespace Sys2Proof.Machine

/-! Variables and buffer. -/

/-- Look a variable up in the list of those assigned. -/
def lookupVar (x : Nat) (vars : List (Nat × Word)) : Option Word :=
  match vars with
  | [] => none
  | (y, v) :: rest => if y = x then some v else lookupVar x rest

/-- Assign a variable; the list stays in rising order of the variables' numbers, each once. -/
def insertVar (x : Nat) (v : Word) (vars : List (Nat × Word)) : List (Nat × Word) :=
  match vars with
  | [] => [(x, v)]
  | (y, w) :: rest =>
    if x < y then (x, v) :: (y, w) :: rest
    else if x = y then (x, v) :: rest
    else (y, w) :: insertVar x v rest

/-- The value of a variable; a free value if nothing assigned it (notes/assumptions/11.md). -/
def State.varValue (s : State) (x : Nat) : Word := (lookupVar x s.host.vars).getD (Config.unassigned s.draws x)

def State.setVar (s : State) (x : Nat) (v : Word) : State :=
  { s with host := { s.host with vars := insertVar x v s.host.vars } }

def State.setPc (s : State) (pc : Nat) : State := { s with host := { s.host with pc := pc } }

def State.setBuf (s : State) (buf : List Byte) : State := { s with host := { s.host with buf := buf } }

/-- "Each statement advances it by one" (R97). -/
def State.advance (s : State) : State := s.setPc (s.host.pc + 1)

/-! Expressions and conditions (R8, R97). -/

/-- 32-bit unsigned arithmetic; a quotient or remainder by zero is a free value (notes/assumptions/12.md). DEDUCED: a shift by 32 or more
gives 0 (notes/assumptions/37.md). -/
def BinOp.apply (op : BinOp) (a b : Word) : Word :=
  match op with
  | .add => a + b
  | .sub => a - b
  | .mul => a * b
  | .div => if b = 0 then Config.divByZero a else a / b
  | .mod => if b = 0 then Config.modByZero a else a % b
  | .and => a &&& b
  | .or => a ||| b
  | .shl => a <<< b.toNat
  | .shr => a >>> b.toNat

/-- The value of an expression; `none` where it names a byte outside the caller's buffer (notes/assumptions/13.md). DEDUCED: bit 32 or above
of a word is 0 (notes/assumptions/37.md). -/
def State.eval (s : State) (e : Expr) : Option Word :=
  match e with
  | .lit v => some v
  | .var x => some (s.varValue x)
  | .not a => (s.eval a).map fun v => ~~~v
  | .bin op a b =>
    match s.eval a, s.eval b with
    | some v, some w => some (op.apply v w)
    | some _, none => none
    | none, _ => none
  | .bit a p => (s.eval a).map fun v => (BitVec.ofBool (v.getLsbD p)).setWidth 32
  | .lowByte a => (s.eval a).map fun v => (v.extractLsb' 0 8).setWidth 32
  | .buf a =>
    match s.eval a with
    | some k => (s.host.buf[k.toNat]?).map fun b => b.setWidth 32
    | none => none

/-- The comparison of two expressions. -/
def State.compare (s : State) (f : Word → Word → Bool) (a b : Expr) : Option Bool :=
  match s.eval a, s.eval b with
  | some v, some w => some (f v w)
  | some _, none => none
  | none, _ => none

/-- The value of a condition, on unsigned values. -/
def State.evalCond (s : State) (c : Cond) : Option Bool :=
  match c with
  | .eq a b => s.compare (fun v w => v == w) a b
  | .lt a b => s.compare (fun v w => decide (v.toNat < w.toNat)) a b
  | .ge a b => s.compare (fun v w => decide (w.toNat ≤ v.toNat)) a b
  | .exceedsBuffer e => (s.eval e).map fun v => decide (s.host.buf.length < v.toNat)

/-! Statements. -/

/-- The word read goes to the statement's variable, if it names one (R96). -/
def State.deliver (s : State) (dest : Option Nat) : State :=
  match dest with
  | some x => s.setVar x s.host.readData
  | none => s

/-- After an access: a live run goes on with the next statement; after a fault or a refusal the host has no further step and stays where it
is (R220, R222, R229). -/
def State.afterAccess (t : State) (dest : Option Nat) : State := if t.inst.live then (t.deliver dest).advance else t

/-- One host access: decode, refuse what is not admitted (R92), run the meaning, go on. -/
def runAccess (w : AccessWord) (dest : Option Nat) (s : State) : Host.Outcome State Fault Refusal :=
  match decode w with
  | .error _ => .next s.refuse
  | .ok i =>
    match exec i s with
    | .next t => .next (t.afterAccess dest)
    | .fault f => .fault f
    | .refused r => .refused r

/-- A bus access of the host (R64, R65). -/
def runBusAccess (a : Nat) (size : AccessSize) (word : Nat → AccessWord) (dest : Option Nat) (s : State) :
    Host.Outcome State Fault Refusal :=
  match busTarget a size with
  | .register k => runAccess (word k) dest s
  | .illegal => .next s.refuse
  | .platform => .refused .platformAddress

/-- Go on with a value, or refuse where the expression has none (notes/assumptions/13.md). -/
def State.withValue {α : Type} (s : State) (v : Option α) (k : α → Host.Outcome State Fault Refusal) :
    Host.Outcome State Fault Refusal :=
  match v with
  | some x => k x
  | none => .next s.refuse

/-- `buf[k] <- b` (R186); refused outside the buffer (R185, notes/assumptions/13.md). -/
def State.storeByte (s : State) (k : Nat) (b : Byte) : State :=
  if k < s.host.buf.length then (s.setBuf (s.host.buf.set k b)).advance else s.refuse

/-- `return`: the program ends, and its result and buffer are the caller's (R97, R189). DESIGN CHOICE: the program is emptied and the pc set
to 0; R97 says only that a return does not advance the pc by one (notes/assumptions/22.md). -/
def State.returnWith (s : State) (v : Option Word) : State :=
  { s with
    host :=
      { s.host with
        program := []
        pc := 0
        vars := []
        buf := []
        current := none
        results := s.host.results ++ [⟨v, s.host.buf⟩] } }

/-- One statement of the host program (R96, R97). -/
def hostStmt (t : Stmt) (s : State) : Host.Outcome State Fault Refusal :=
  match t with
  | .access w => runAccess w none s
  | .write r e => s.withValue (s.eval e) fun v => runAccess (writeWord r.offset v) none s
  | .read r x => runAccess (readWord r.offset) (some x) s
  | .memWrite a z e => s.withValue (s.eval e) fun v => runBusAccess a z (fun k => writeWord k v) none s
  | .memRead a z x => runBusAccess a z readWord (some x) s
  | .assign x e => s.withValue (s.eval e) fun v => .next (s.setVar x v).advance
  | .store k e =>
    s.withValue (s.eval k) fun j => s.withValue (s.eval e) fun v => .next (s.storeByte j.toNat (v.extractLsb' 0 8))
  | .goto l => .next (s.setPc l)
  | .ifGoto c l => s.withValue (s.evalCond c) fun b => .next (if b then s.setPc l else s.advance)
  | .ret none => .next (s.returnWith none)
  | .ret (some e) => s.withValue (s.eval e) fun v => .next (s.returnWith (some v))
  | .refuse => .next s.refuse

/-- Begin the next call: its program, from the start, with no variable assigned and its buffer (R100). -/
def State.begin (s : State) (c : Call) (rest : List Call) : State :=
  { s with
    host :=
      { s.host with
        program := c.program
        pc := 0
        vars := []
        buf := c.buffer
        current := some c
        calls := rest } }

/-- The statement at the pc. -/
def State.fetch (s : State) : Option Stmt := s.host.program[s.host.pc]?

/-- The host agent's step: the statement at the pc; past the program's end, the next call; with none left, it idles
(notes/assumptions/8.md). -/
def hostStep (s : State) : Host.Outcome State Fault Refusal :=
  match s.fetch with
  | some t => hostStmt t s
  | none =>
    match s.host.calls with
    | c :: rest => .next (s.begin c rest)
    | [] => .next s

/-- The transaction state a running READ or WRITE is in (R190). -/
def State.txnState (s : State) : Option TxnState :=
  match s.host.current with
  | some (.read i addr len _) => txnStateAt (readLines i addr len) s.host.pc (s.varValue varK).toNat
  | some (.write i addr _ len) => txnStateAt (writeLines i addr len) s.host.pc (s.varValue varK).toNat
  | some (.enable _) => none
  | some (.setClock _ _) => none
  | some (.disable _) => none
  | none => none

/-! Who moves. -/

def State.dropMove (s : State) : State := { s with moves := s.moves.tail }

/-- The choice of who moves, and the state once it is made: the next entry of `moves`; where it is empty, the host if nothing is in flight,
else a free choice between the two agents (R70, R142; notes/assumptions/7.md). -/
def State.chooseMove (s : State) : Move × State :=
  match s.moves with
  | m :: _ => (m, s.dropMove)
  | [] =>
    match s.inst.inflight with
    | none => (.host, s)
    | some _ => (if Config.controllerMoves s.draws then .controller else .host, s.bumpDraws)

/-- One agent's step. -/
def runMove (m : Move) (s : State) : Host.Outcome State Fault Refusal :=
  match m with
  | .host => hostStep s
  | .controller => completionStep s
  | .otherHost => .next s.refuse
  | .midRunReset => .next s.refuse

/-- One step of the machine: a run that is not live has none (R222). -/
def machineStep (s : State) : Host.Outcome State Fault Refusal :=
  s.whileLive (runMove s.chooseMove.1 s.chooseMove.2)

/-! Placing one access where the next step performs it. -/

/-- The program with statement `t` at index `pc`; the places before it that the program does not have are filled with `refuse`. -/
def placeAt (program : List Stmt) (pc : Nat) (t : Stmt) : List Stmt :=
  program.take pc ++ (List.replicate (pc - program.length) .refuse ++ (t :: program.drop (pc + 1)))

/-- The statement of an opcode-table word: an access word has 12 bits. -/
def tableStmt (nbits w : Nat) : Stmt :=
  if w % 2 ^ nbits < 2 ^ 12 then .access (BitVec.ofNat 12 (w % 2 ^ nbits)) else .refuse

/-- The moves that make the host move next. -/
def hostNext (s : State) : List Move :=
  match s.moves, s.inst.inflight with
  | [], none => []
  | ms, _ => .host :: ms

/-- Place an opcode-table word at the pc and let the host move next. -/
def State.placeAccess (s : State) (nbits w : Nat) : State :=
  { s with
    moves := hostNext s
    host := { s.host with program := placeAt s.host.program s.host.pc (tableStmt nbits w) } }

end Sys2Proof.Machine
end

