-- ==== Sys2Proof/Machine/Step.lean ====
section
/-! DEFINITION. One step of the machine, and where an opcode-table word is placed for it. -/

namespace Sys2Proof.Machine

/-- One step: the agent whose turn it is moves; after a fault or a refusal none does (R70, R142, R222). -/
def step (s : State) : Host.Outcome State Fault Refusal := machineStep s

/-- `s` with the access of an opcode-table word as the host's next statement, and the host to move. -/
def State.withFetchWord (s : State) (nbits w : Nat) : State := s.placeAccess nbits w

end Sys2Proof.Machine
end

