-- ==== Sys2Proof/Machine/Trace.lean ====
section
/-! DEFINITION. Reading the bus trace (41_bus_commands.md R140, R143, R149, R156): whether the bus is open, which events can follow, the
last byte received, and the transactions the trace encodes. -/

namespace Sys2Proof.Machine

/-- Is the bus open after event `e` (R29, R143, R149)? -/
def openAfter (isOpen : Bool) (e : BusEvent) : Bool :=
  match e with
  | .start => true
  | .rstart => true
  | .tx _ _ => isOpen
  | .rx _ _ => isOpen
  | .stop => false

/-- "Busy is 1 exactly between a start condition this controller generated and the next stop condition it generated" (R29). -/
def busOpen (tr : List BusEvent) : Bool := tr.foldl openAfter false

/-- Can event `e` stand where the bus is open or not? START on an idle bus, RSTART on a busy one (R143); a byte only in an open
transaction (R263); STOP anywhere (R150). -/
def eventFits (isOpen : Bool) (e : BusEvent) : Bool :=
  match e with
  | .start => !isOpen
  | .rstart => isOpen
  | .tx _ _ => isOpen
  | .rx _ _ => isOpen
  | .stop => true

/-- Every event of the trace fits where it stands, from a bus that is `isOpen`. -/
def traceFits (isOpen : Bool) (tr : List BusEvent) : Bool :=
  match tr with
  | [] => true
  | e :: rest => eventFits isOpen e && traceFits (openAfter isOpen e) rest

/-- The byte of a receive event. -/
def receivedByte (e : BusEvent) : Option Byte :=
  match e with
  | .rx b _ => some b
  | .start | .rstart | .tx _ _ | .stop => none

/-- The byte the last completed read command received (R25), as the trace shows it. -/
def lastReceived (tr : List BusEvent) : Option Byte := (tr.filterMap receivedByte).getLast?

/-- Does the event have an acknowledge slot, and what level did the slave give in it? `some none`: the master answered (R148). -/
def acknowledgeSlot (e : BusEvent) : Option (Option Bit) :=
  match e with
  | .tx _ a => some (some a)
  | .rx _ _ => some none
  | .start | .rstart | .stop => none

/-- The acknowledge slot of the last byte on the bus. -/
def lastAcknowledge (tr : List BusEvent) : Option (Option Bit) := (tr.filterMap acknowledgeSlot).getLast?

/-! The protocol the trace encodes (R156). -/

/-- One transaction: how it began, its address byte, the bytes after it, and whether a stop ended it. -/
structure Transaction where
  repeated : Bool
  /-- `{address, dir}` and the slave's answer; `none` before it is sent. -/
  address : Option (Byte × Bit)
  /-- The bytes after it, as the TX and RX events they are. -/
  data : List BusEvent
  stopped : Bool
  deriving DecidableEq, Repr

/-- The 7-bit address of an address byte (R24). -/
def addressOf (b : Byte) : BitVec 7 := b.extractLsb' 1 7

/-- The direction bit of an address byte: 1 = read (R24). -/
def directionOf (b : Byte) : Bit := b.extractLsb' 0 1

/-- Add one event to the transaction that is open. DESIGN CHOICE: a byte whose kind disagrees with the direction bit (an RX in a write, a TX
in a read) is kept in its place as the event it is; R156 does not say how it is read (notes/assumptions/36.md). -/
def Transaction.add (t : Transaction) (e : BusEvent) : Transaction :=
  match e with
  | .tx b a =>
    match t.address with
    | none => { t with address := some (b, a) }
    | some _ => { t with data := t.data ++ [.tx b a] }
  | .rx b m => { t with data := t.data ++ [.rx b m] }
  | .stop => { t with stopped := true }
  | .start => t
  | .rstart => t

/-- The transactions of a trace, given the open one: "a transaction is a START or RSTART followed by an address byte" and "ends at a STOP or
at the next RSTART" (R156). Events outside a transaction (a STOP on an idle bus, R150) belong to none. -/
def transactionsFrom (cur : Option Transaction) (tr : List BusEvent) : List Transaction :=
  match tr with
  | [] => cur.toList
  | .start :: rest => cur.toList ++ transactionsFrom (some ⟨false, none, [], false⟩) rest
  | .rstart :: rest => cur.toList ++ transactionsFrom (some ⟨true, none, [], false⟩) rest
  | .stop :: rest => (cur.map fun t => t.add .stop).toList ++ transactionsFrom none rest
  | .tx b a :: rest => transactionsFrom (cur.map fun t => t.add (.tx b a)) rest
  | .rx b m :: rest => transactionsFrom (cur.map fun t => t.add (.rx b m)) rest

/-- The transactions of a whole trace (R156). -/
def transactions (tr : List BusEvent) : List Transaction := transactionsFrom none tr

end Sys2Proof.Machine
end

