-- ==== Sys2Proof/Safety.lean ====
section
/-! DEFINITION. What a safe run is, in the terms the statements use: the invariant of the machine, the access a host statement performs, final
and quiescent states, and the named fairness premise BUS_PROGRESS (41_bus_commands.md R154). -/

namespace Sys2Proof.Machine

/-- What holds of the controller in every run: each clause cites the rule it is read from. -/
structure Inst.Inv (i : Inst) : Prop where
  /-- A command in flight is one the decoder admits, and it starts bus activity (R31, R89, R119). -/
  admitted : ∀ c, i.inflight = some c → c.admitted = true ∧ c.starts = true
  /-- A command is in flight only on an enabled core (R115, R119). -/
  enabled : ∀ c, i.inflight = some c → i.en = true
  /-- The bus is open only on an enabled core (R115, R119, R260). -/
  openEnabled : i.busy = true → i.en = true
  /-- "TXR is `some b`" while a write command is in flight (R145). -/
  transmitByte : ∀ c, i.inflight = some c → c.wr = true → i.txr.isSome = true
  /-- A byte command in flight has a start or an open bus (R119, R263). -/
  openForByte : ∀ c, i.inflight = some c → c.rd = true ∨ c.wr = true → c.sta = true ∨ i.busy = true
  /-- Busy is 1 exactly between a start condition and the next stop condition (R29). -/
  busyTrace : i.busy = busOpen i.trace
  /-- Every bus event stands where it can (R140, R143, R263). -/
  eventsFit : traceFits false i.trace = true
  /-- RXR holds the byte of the last completed read command (R25). -/
  received : i.rxr = lastReceived i.trace
  /-- No acknowledge slot yet: RxACK holds no value (R28, R38). -/
  noAcknowledge : lastAcknowledge i.trace = none → i.rxack = none
  /-- After a write byte RxACK is the slave's level (R146). -/
  slaveAcknowledge : ∀ a, lastAcknowledge i.trace = some (some a) → i.rxack = some a
  /-- After a read byte RxACK holds some value (R148). -/
  masterAcknowledge : lastAcknowledge i.trace = some none → i.rxack.isSome = true
  /-- At most one fault is recorded, and none beside the refusal mark (R222, R228). -/
  oneMark : i.faults.length + i.refused.toNat ≤ 1

/-- The host's variables stand in rising order, each once. -/
def varsOrdered (vars : List (Nat × Word)) : Prop := vars.Pairwise fun a b => a.1 < b.1

/-- The invariant of the machine. -/
structure State.Inv (s : State) : Prop where
  inst : s.inst.Inv
  vars : varsOrdered s.host.vars

/-- Host statement `st` performs the access with word `w` in state `s` (R64, R96); a local statement performs none (R97). -/
def State.Performs (s : State) (st : Stmt) (w : AccessWord) : Prop :=
  match st with
  | .access u => w = u
  | .write r e => ∃ v, s.eval e = some v ∧ w = writeWord r.offset v
  | .read r _ => w = readWord r.offset
  | .memWrite a z e => ∃ k v, busTarget a z = .register k ∧ s.eval e = some v ∧ w = writeWord k v
  | .memRead a z _ => ∃ k, busTarget a z = .register k ∧ w = readWord k
  | .assign _ _ | .store _ _ | .goto _ | .ifGoto _ _ | .ret _ | .refuse => False

/-- The statement at the host's pc performs the access with word `w`. -/
def State.NextAccess (s : State) (w : AccessWord) : Prop := ∃ st, s.fetch = some st ∧ s.Performs st w

/-- `n` steps. -/
abbrev runSteps (n : Nat) (s : State) : Host.Outcome State Fault Refusal := Sys2Proof.core.run n s

/-- Final states: the run is live ("The state is quiescent and never final" after a fault or a refusal, R222), nothing is in flight, and the
host has no statement and no call left. DESIGN CHOICE: the spec does not say which live states are final (notes/assumptions/33.md). -/
def State.isFinal (s : State) : Bool :=
  s.inst.live && s.inst.inflight.isNone && s.fetch.isNone && s.host.calls.isEmpty

/-- A run that never stops with a fault. -/
def State.safe (s : State) : Prop := ∀ n r, runSteps n s ≠ .fault r

/-- `BUS_PROGRESS`: "every command in flight completes after finitely many host steps" (R154), of the run from `s`: wherever it has a command
in flight, a later state of it has none, unless it stops before. A premise of claims that a transaction ends; never assumed. -/
def BusProgress (s : State) : Prop :=
  ∀ n t, runSteps n s = .next t → t.inst.inflight.isSome = true →
    ∃ m, ∀ u, runSteps m t = .next u → u.inst.inflight = none

end Sys2Proof.Machine
end

