-- ==== Sys2Proof/Certificates/Slice0/Obligations.lean ====
section
/-! DEFINITION. The statements for the provers, from the numbered rules of spec/. A draw is an opaque constant of Config, so a statement that
names one holds for every value of it. Parts of many rules are marked in spec/ as the spec's own decisions D<n> (92_eei_decisions.md): a
statement of such a rule states what the rule says, that is, the spec's decision. -/

open Sys2Proof Sys2Proof.Machine

/-! Encoding. -/

/-- R87: every row of the opcode map decodes to its mnemonic, with its data byte or its IACK bit read from the word. -/
def Obligations.OpcodeMapDecodes : Prop :=
  (decode 0x000#12 = .ok .rdPrerlo ∧ decode 0x100#12 = .ok .rdPrerhi ∧ decode 0x200#12 = .ok .rdCtr ∧ decode 0x300#12 = .ok .rdRxr ∧
    decode 0x400#12 = .ok .rdSr ∧ decode 0xC00#12 = .ok .crNop ∧ decode 0xC01#12 = .ok .crIack) ∧
  (∀ d : Byte,
    decode (0x800#12 ||| d.setWidth 12) = .ok (.wrPrerlo d) ∧ decode (0x900#12 ||| d.setWidth 12) = .ok (.wrPrerhi d) ∧
    decode (0xB00#12 ||| d.setWidth 12) = .ok (.wrTxr d)) ∧
  (decode 0xA00#12 = .ok (.wrCtr 0x00) ∧ decode 0xA40#12 = .ok (.wrCtr 0x40) ∧ decode 0xA80#12 = .ok (.wrCtr 0x80) ∧
    decode 0xAC0#12 = .ok (.wrCtr 0xC0)) ∧
  ∀ k : Bool,
    decode (0xC40#12 ||| (BitVec.ofBool k).setWidth 12) = .ok (.crSto k) ∧
    decode (0xC10#12 ||| (BitVec.ofBool k).setWidth 12) = .ok (.crWr k) ∧
    decode (0xC50#12 ||| (BitVec.ofBool k).setWidth 12) = .ok (.crWrSto k) ∧
    decode (0xC90#12 ||| (BitVec.ofBool k).setWidth 12) = .ok (.crStaWr k) ∧
    decode (0xCD0#12 ||| (BitVec.ofBool k).setWidth 12) = .ok (.crStaWrSto k) ∧
    decode (0xC20#12 ||| (BitVec.ofBool k).setWidth 12) = .ok (.crRd k) ∧
    decode (0xC28#12 ||| (BitVec.ofBool k).setWidth 12) = .ok (.crRdAck k) ∧
    decode (0xC60#12 ||| (BitVec.ofBool k).setWidth 12) = .ok (.crRdSto k) ∧
    decode (0xC68#12 ||| (BitVec.ofBool k).setWidth 12) = .ok (.crRdAckSto k)

/-- R90 and R91: the refused words. -/
def Obligations.ReservedWordsAreRefused : Prop :=
  (∀ d : Byte,
    (d.getLsbD 5 = true ∧ d.getLsbD 4 = true) ∨ (d.getLsbD 7 = true ∧ d.getLsbD 5 = false ∧ d.getLsbD 4 = false) ∨
      (d.getLsbD 7 = true ∧ d.getLsbD 5 = true) ∨ (d.getLsbD 3 = true ∧ d.getLsbD 5 = false) ∨ d.extractLsb' 1 2 ≠ 0 →
    ∃ r, decode (accessWord true 4 d) = .error r) ∧
  (∀ (k : Nat) (d : Byte), d ≠ 0 → ∃ r, decode (accessWord false k d) = .error r) ∧
  (∀ d : Byte, d.extractLsb' 0 6 ≠ 0 → ∃ r, decode (accessWord true 2 d) = .error r) ∧
  ∀ (w : Bool) (k : Nat) (d : Byte), 5 ≤ k → k < 8 → ∃ r, decode (accessWord w k d) = .error r

/-- The round trip: decoding the access word of a well-formed instruction gives it back, every operand at every value (R87, R88). -/
def Obligations.DecodeOfEncode : Prop :=
  ∀ i : Instr, i.WellFormed → decode (encode i) = .ok i

/-- The other direction: every admitted word is the access word of the one instruction it decodes to (R88). -/
def Obligations.EncodeOfDecode : Prop :=
  ∀ (w : AccessWord) (i : Instr), decode w = .ok i → i.WellFormed ∧ encode i = w

/-- R89: `cmd(d)` is what an admitted CR word puts in flight; CR_NOP and CR_IACK put nothing. -/
def Obligations.CommandRecordOfCommandByte : Prop :=
  ∀ (d : Byte) (i : Instr), decode (accessWord true 4 d) = .ok i →
    i.command = some (⟨d.getLsbD 7, d.getLsbD 6, d.getLsbD 5, d.getLsbD 4, d.getLsbD 3⟩, d.getLsbD 0) ∧
    (∀ s t, exec i s = .next t → t.inst.inflight ≠ s.inst.inflight →
      t.inst.inflight = some ⟨d.getLsbD 7, d.getLsbD 6, d.getLsbD 5, d.getLsbD 4, d.getLsbD 3⟩) ∧
    ((i = .crNop ∨ i = .crIack) →
      i.command = some (⟨false, false, false, false, false⟩, d.getLsbD 0) ∧
      ∀ s t, exec i s = .next t → t.inst.inflight = s.inst.inflight)

/-! Reset, and the invariant of every step. -/

/-- The reset value of each piece of the controller's state (R38: "Every entry is the spec's own", decision D7). -/
def Obligations.ResetValues : Prop :=
  State.reset.inst =
    { prerlo := none, prerhi := none, en := false, ien := false, txr := none, rxr := none, rxack := none, busy := false, iflag := false,
      inflight := none, trace := [], faults := [], refused := false }

/-- The invariant holds right after reset. -/
def Obligations.ResetMeetsInvariant : Prop :=
  State.reset.Inv

/-- Every step keeps the invariant: what is in flight is admitted and has its byte and its open bus; a core with a command in
flight or an open bus is enabled; Busy, RXR and RxACK are what the bus trace says; every bus event stands where it can; at most one fault or
refusal is recorded; the host's variables keep their form. -/
def Obligations.StepKeepsInvariant : Prop :=
  ∀ s t : State, s.Inv → step s = .next t → t.Inv

/-! The step. -/

/-- A step runs the decoded access: where the host moves and its next statement is an access, a `W` or an `R` whose access word decodes to `i`,
the step is `exec i`, after which a live run has the word read in the statement's variable and the pc one further, and a run with a fault or a
refusal stays where it is (R67, R97; the last clause is notes/assumptions/15.md). -/
def Obligations.StepRunsTheDecodedAccess : Prop :=
  (∀ (s : State) (i : Instr) (w : AccessWord) (dest : Option Nat), s.inst.live = true → s.chooseMove.1 = .host → decode w = .ok i →
    (s.chooseMove.2.fetch = some (.access w) ∧ dest = none ∨
      (∃ r x, s.chooseMove.2.fetch = some (.read r x) ∧ w = readWord r.offset ∧ dest = some x) ∨
      ∃ r e v, s.chooseMove.2.fetch = some (.write r e) ∧ s.chooseMove.2.eval e = some v ∧ w = writeWord r.offset v ∧ dest = none) →
    ∃ t, exec i s.chooseMove.2 = .next t ∧ step s = .next (t.afterAccess dest)) ∧
  (∀ t : State, t.inst.live = true → t.afterAccess none = t.setPc (t.host.pc + 1)) ∧
  (∀ (t : State) (x : Nat), t.inst.live = true → t.afterAccess (some x) = (t.setVar x t.host.readData).setPc (t.host.pc + 1)) ∧
  ∀ (t : State) (dest : Option Nat), t.inst.live = false → t.afterAccess dest = t

/-- The very next step after an opcode-table word is placed runs exactly that word's instruction (notes/assumptions/14.md): on the state as it
was, but for the program, whose statement at the pc is the access. -/
def Obligations.StepRunsThePlacedWord : Prop :=
  ∀ (s : State) (nbits w : Nat) (i : Instr), s.inst.live = true → decodeTableWord nbits w = some i →
    ∃ u : State, u.inst = s.inst ∧ u.moves = s.moves ∧ u.slaveAcks = s.slaveAcks ∧ u.slaveBytes = s.slaveBytes ∧ u.draws = s.draws ∧
      u.host = { s.host with program := u.host.program } ∧
      u.fetch = some (.access (BitVec.ofNat 12 (w % 2 ^ nbits))) ∧
      ∃ t, exec i u = .next t ∧ step (s.withFetchWord nbits w) = .next (t.afterAccess none)

/-- R92: an access outside the admitted set, by whichever host statement, sets the mark and changes nothing else of the controller; no step
follows it, so no step clears the mark. -/
def Obligations.UnadmittedAccessOnlySetsTheMark : Prop :=
  (∀ (s : State) (w : AccessWord) (r : Reject), s.inst.live = true → s.chooseMove.1 = .host → s.chooseMove.2.NextAccess w →
    decode w = .error r → ∃ t, step s = .next t ∧ t.inst = { s.inst with refused := true }) ∧
  ∀ u t : State, u.inst.refused = true → step u ≠ .next t

/-- R222: after a fault or a refusal neither the host agent nor the completion step has a further step; no access is performed. -/
def Obligations.QuiescentRunHasNoStep : Prop :=
  ∀ s : State, s.inst.faults ≠ [] ∨ s.inst.refused = true →
    (∀ t, step s ≠ .next t) ∧ (∀ (i : Instr) (t : State), exec i s ≠ .next t) ∧ ∀ t, completionStep s ≠ .next t

/-- The interleaving is free: whichever agent `moves` names takes the step, and with no entry and nothing in flight it is the host's (R70,
R142; the form of the choice is notes/assumptions/7.md). -/
def Obligations.EitherAgentMayMoveNext : Prop :=
  ∀ (s : State) (ms : List Move), s.inst.live = true →
    step { s with moves := .host :: ms } = hostStep { s with moves := ms } ∧
    step { s with moves := .controller :: ms } = completionStep { s with moves := ms } ∧
    (s.moves = [] → s.inst.inflight = none → step s = hostStep s)

/-- A second host agent and a reset in the middle of a run are refused (R72, R250; D33, D34; their form is notes/assumptions/17.md). -/
def Obligations.OutsidersAreRefused : Prop :=
  ∀ (s : State) (ms : List Move), s.inst.live = true →
    step { s with moves := .otherHost :: ms } = .next { s with moves := ms, inst := { s.inst with refused := true } } ∧
    step { s with moves := .midRunReset :: ms } = .next { s with moves := ms, inst := { s.inst with refused := true } }

/-! Register accesses. -/

/-- R111 and R113: a prescale write stores its byte with EN = 0 and faults with EN = 1. -/
def Obligations.PrescaleWrites : Prop :=
  ∀ (d : Byte) (s : State), s.inst.live = true →
    encode (.wrPrerlo d) = 0x800#12 ||| d.setWidth 12 ∧ encode (.wrPrerhi d) = 0x900#12 ||| d.setWidth 12 ∧
    (s.inst.en = false →
      exec (.wrPrerlo d) s = .next { s with inst := { s.inst with prerlo := some d } } ∧
      exec (.wrPrerhi d) s = .next { s with inst := { s.inst with prerhi := some d } }) ∧
    (s.inst.en = true →
      exec (.wrPrerlo d) s = .next { s with inst := { s.inst with faults := s.inst.faults ++ [.prescaleWhileEnabled] } } ∧
      exec (.wrPrerhi d) s = .next { s with inst := { s.inst with faults := s.inst.faults ++ [.prescaleWhileEnabled] } })

/-- R110 and R112: a prescale read returns the byte held below three draws, in every state of the core, and faults where none is held. -/
def Obligations.PrescaleReads : Prop :=
  (encode .rdPrerlo = 0x000#12 ∧ encode .rdPrerhi = 0x100#12) ∧
  ∀ s : State, s.inst.live = true →
    (∀ b, s.inst.prerlo = some b →
      ∃ t, exec .rdPrerlo s = .next t ∧ t.host.readData = s.draw24 ++ b ∧ t.inst = s.inst ∧
        t.host = { s.host with readData := t.host.readData } ∧ t.moves = s.moves) ∧
    (∀ b, s.inst.prerhi = some b →
      ∃ t, exec .rdPrerhi s = .next t ∧ t.host.readData = s.draw24 ++ b ∧ t.inst = s.inst ∧
        t.host = { s.host with readData := t.host.readData } ∧ t.moves = s.moves) ∧
    (s.inst.prerlo = none →
      exec .rdPrerlo s = .next { s with inst := { s.inst with faults := s.inst.faults ++ [.unwrittenRead .prerlo] } }) ∧
    (s.inst.prerhi = none →
      exec .rdPrerhi s = .next { s with inst := { s.inst with faults := s.inst.faults ++ [.unwrittenRead .prerhi] } })

/-- R114: a read of CTR returns EN in bit 7, IEN in bit 6 and zeros in bits 5:0, and faults in no state. -/
def Obligations.ControlRead : Prop :=
  encode .rdCtr = 0x200#12 ∧
  ∀ s : State, s.inst.live = true →
    ∃ t, exec .rdCtr s = .next t ∧ t.inst = s.inst ∧ t.host = { s.host with readData := t.host.readData } ∧ t.moves = s.moves ∧
      t.host.readData = s.draw24 ++ (BitVec.ofBool s.inst.en ++ (BitVec.ofBool s.inst.ien ++ 0#6))

/-- R115: a write of CTR, in every case: reserved bits, disabling an active core, and the write of EN and IEN. -/
def Obligations.ControlWrite : Prop :=
  (∀ d : Byte, encode (.wrCtr d) = 0xA00#12 ||| d.setWidth 12) ∧
  ∀ (d : Byte) (s : State), s.inst.live = true →
    (d.extractLsb' 0 6 ≠ 0 → exec (.wrCtr d) s = .next { s with inst := { s.inst with refused := true } }) ∧
    (d.extractLsb' 0 6 = 0 → s.inst.en = true → d.getLsbD 7 = false → s.inst.inflight ≠ none ∨ s.inst.busy = true →
      exec (.wrCtr d) s = .next { s with inst := { s.inst with faults := s.inst.faults ++ [.disableWhileActive] } }) ∧
    (d.extractLsb' 0 6 = 0 →
      s.inst.en = false ∨ d.getLsbD 7 = true ∨ (s.inst.inflight = none ∧ s.inst.busy = false) →
      exec (.wrCtr d) s = .next { s with inst := { s.inst with en := d.getLsbD 7, ien := d.getLsbD 6 } })

/-- R116: a read of RXR, in every case; while a read command is in flight the byte is a draw. -/
def Obligations.ReceiveRead : Prop :=
  encode .rdRxr = 0x300#12 ∧
  ∀ s : State, s.inst.live = true →
    (∀ c, s.inst.inflight = some c → c.rd = true →
      ∃ t, exec .rdRxr s = .next t ∧ t.host.readData = s.draw24 ++ Config.drawByte s.draws 3 ∧ t.inst = s.inst ∧
        t.host = { s.host with readData := t.host.readData } ∧ t.moves = s.moves) ∧
    ((∀ c, s.inst.inflight = some c → c.rd = false) →
      (∀ b, s.inst.rxr = some b →
        ∃ t, exec .rdRxr s = .next t ∧ t.host.readData = s.draw24 ++ b ∧ t.inst = s.inst ∧
          t.host = { s.host with readData := t.host.readData } ∧ t.moves = s.moves) ∧
      (s.inst.rxr = none →
        exec .rdRxr s = .next { s with inst := { s.inst with faults := s.inst.faults ++ [.unwrittenRead .rxr] } }))

/-- R117: a write of TXR stores its byte unless a command with WR is in flight; EN plays no part. -/
def Obligations.TransmitWrite : Prop :=
  ∀ (d : Byte) (s : State), s.inst.live = true →
    encode (.wrTxr d) = 0xB00#12 ||| d.setWidth 12 ∧
    ((∀ c, s.inst.inflight = some c → c.wr = false) → exec (.wrTxr d) s = .next { s with inst := { s.inst with txr := some d } }) ∧
    ∀ c, s.inst.inflight = some c → c.wr = true →
      exec (.wrTxr d) s = .next { s with inst := { s.inst with faults := s.inst.faults ++ [.txrWhileWriting] } }

/-- R118: every bit of a read of SR. `Config.drawBit s.draws p` is the draw of bit `p` in this step. -/
def Obligations.StatusRead : Prop :=
  encode .rdSr = 0x400#12 ∧
  ∀ s : State, s.inst.live = true →
    ∃ t, exec .rdSr s = .next t ∧ t.inst = s.inst ∧ t.host = { s.host with readData := t.host.readData } ∧ t.moves = s.moves ∧
      t.host.readData.extractLsb' 8 24 = s.draw24 ∧ t.host.readData.extractLsb' 0 1 = BitVec.ofBool s.inst.iflag ∧
      (∀ p, 2 ≤ p → p ≤ 5 → t.host.readData.extractLsb' p 1 = Config.drawBit s.draws p) ∧
      (s.inst.inflight = none →
        t.host.readData.extractLsb' 1 1 = 0 ∧ t.host.readData.extractLsb' 6 1 = BitVec.ofBool s.inst.busy ∧
        (∀ a, s.inst.rxack = some a → t.host.readData.extractLsb' 7 1 = a) ∧
        (s.inst.rxack = none → t.host.readData.extractLsb' 7 1 = Config.drawBit s.draws 7)) ∧
      ∀ c, s.inst.inflight = some c →
        t.host.readData.extractLsb' 7 1 = Config.drawBit s.draws 7 ∧
        (c.rd = true ∨ c.wr = true → t.host.readData.extractLsb' 1 1 = 1) ∧
        (c.rd = false → c.wr = false → t.host.readData.extractLsb' 1 1 = Config.drawBit s.draws 1) ∧
        (c.sta = true ∨ c.sto = true → t.host.readData.extractLsb' 6 1 = Config.drawBit s.draws 6) ∧
        (c.sta = false → c.sto = false → t.host.readData.extractLsb' 6 1 = BitVec.ofBool s.inst.busy)

/-! Command writes. -/

/-- R119: every admitted CR write, with its faults in the order they are checked; an unadmitted command byte is refused. -/
def Obligations.CommandWriteChecksInOrder : Prop :=
  (∀ (i : Instr) (c : Cmd) (k : Bool) (s : State), i.command = some (c, k) → s.inst.live = true →
    exec i s =
      .next
        (if s.inst.en = false then
          { s with inst := { s.inst with faults := s.inst.faults ++ [.commandWhileDisabled] } }
        else if s.inst.inflight ≠ none then
          { s with inst := { s.inst with faults := s.inst.faults ++ [.commandWhileInFlight] } }
        else if (c.rd = true ∨ c.wr = true) ∧ c.sta = false ∧ s.inst.busy = false then
          { s with inst := { s.inst with faults := s.inst.faults ++ [.byteWithoutStart] } }
        else if c.wr = true ∧ s.inst.txr = none then
          { s with inst := { s.inst with faults := s.inst.faults ++ [.unwrittenTxr] } }
        else
          { s with
            inst :=
              { s.inst with
                iflag := if k = true then false else s.inst.iflag
                inflight :=
                  if c.sta = true ∨ c.sto = true ∨ c.rd = true ∨ c.wr = true then some c else s.inst.inflight } })) ∧
  ∀ (d : Byte) (r : Reject) (dest : Option Nat) (s : State), decode (accessWord true 4 d) = .error r →
    ∃ t, runAccess (accessWord true 4 d) dest s = .next t ∧ t.inst = { s.inst with refused := true }

/-- R120 and R121: CR_NOP changes nothing and CR_IACK clears IF on an enabled idle core; both fault on a disabled or a busy one. CR_NOP's is
the only command byte that changes nothing on every enabled idle core. -/
def Obligations.NopAndInterruptAcknowledge : Prop :=
  (encode .crNop = 0xC00#12 ∧ encode .crIack = 0xC01#12) ∧
  (∀ (d : Byte) (i : Instr), decode (accessWord true 4 d) = .ok i →
    (∀ s : State, s.inst.live = true → s.inst.en = true → s.inst.inflight = none → exec i s = .next s) → d = 0) ∧
  ∀ s : State, s.inst.live = true →
    (s.inst.en = true → s.inst.inflight = none →
      exec .crNop s = .next s ∧
      ∃ t, exec .crIack s = .next t ∧ t = { s with inst := { s.inst with iflag := false } } ∧ t.inst.irq = false) ∧
    (s.inst.en = false →
      exec .crNop s = .next { s with inst := { s.inst with faults := s.inst.faults ++ [.commandWhileDisabled] } } ∧
      exec .crIack s = .next { s with inst := { s.inst with faults := s.inst.faults ++ [.commandWhileDisabled] } }) ∧
    (s.inst.en = true → s.inst.inflight ≠ none →
      exec .crNop s = .next { s with inst := { s.inst with faults := s.inst.faults ++ [.commandWhileInFlight] } } ∧
      exec .crIack s = .next { s with inst := { s.inst with faults := s.inst.faults ++ [.commandWhileInFlight] } })

/-- CR_STO goes in flight on an enabled idle core, whether or not the bus is busy (R122), and its completion sends a stop (R149, R150). -/
def Obligations.StopCommandIssues : Prop :=
  ∀ (k : Bool) (s : State), s.inst.live = true → s.inst.en = true → s.inst.inflight = none →
    ∃ t u, exec (.crSto k) s = .next t ∧
      t = { s with inst := { s.inst with iflag := s.inst.iflag && !k, inflight := some ⟨false, true, false, false, false⟩ } } ∧
      completionStep t = .next u ∧ u.inst.trace = s.inst.trace ++ [.stop] ∧ u.inst.busy = false ∧ u.inst.iflag = true ∧
      u.inst.inflight = none ∧ u.inst.en = true

/-- CR_WR and CR_WR_STO go in flight in an open transaction with a byte in TXR (R123, R124), and their completion sends that byte. -/
def Obligations.WriteCommandsIssue : Prop :=
  ∀ (k : Bool) (b : Byte) (s : State), s.inst.live = true → s.inst.en = true → s.inst.inflight = none → s.inst.busy = true →
    s.inst.txr = some b →
    (∃ t u a, exec (.crWr k) s = .next t ∧
      t = { s with inst := { s.inst with iflag := s.inst.iflag && !k, inflight := some ⟨false, false, false, true, false⟩ } } ∧
      completionStep t = .next u ∧ u.inst.trace = s.inst.trace ++ [.tx b a] ∧ u.inst.rxack = some a ∧ u.inst.busy = true) ∧
    ∃ t u a, exec (.crWrSto k) s = .next t ∧
      t = { s with inst := { s.inst with iflag := s.inst.iflag && !k, inflight := some ⟨false, true, false, true, false⟩ } } ∧
      completionStep t = .next u ∧ u.inst.trace = s.inst.trace ++ [.tx b a, .stop] ∧ u.inst.rxack = some a ∧ u.inst.busy = false

/-- CR_STA_WR and CR_STA_WR_STO go in flight with a byte in TXR (R125, R126); their completion sends a start (a repeated start on a busy bus,
R143) and that byte. -/
def Obligations.StartCommandsIssue : Prop :=
  ∀ (k : Bool) (b : Byte) (s : State), s.inst.live = true → s.inst.en = true → s.inst.inflight = none → s.inst.txr = some b →
    (∃ t u a, exec (.crStaWr k) s = .next t ∧
      t = { s with inst := { s.inst with iflag := s.inst.iflag && !k, inflight := some ⟨true, false, false, true, false⟩ } } ∧
      completionStep t = .next u ∧
      u.inst.trace = s.inst.trace ++ [if s.inst.busy = true then .rstart else .start, .tx b a] ∧
      u.inst.rxack = some a ∧ u.inst.busy = true) ∧
    ∃ t u a, exec (.crStaWrSto k) s = .next t ∧
      t = { s with inst := { s.inst with iflag := s.inst.iflag && !k, inflight := some ⟨true, true, false, true, false⟩ } } ∧
      completionStep t = .next u ∧
      u.inst.trace = s.inst.trace ++ [if s.inst.busy = true then .rstart else .start, .tx b a, .stop] ∧
      u.inst.rxack = some a ∧ u.inst.busy = false

/-- The four read forms go in flight in an open transaction (R127 to R130); their completion puts the received byte in RXR, answers ACK
(level 0) or NACK (level 1), and stops the bus where the form has STO. -/
def Obligations.ReadCommandsIssue : Prop :=
  ∀ (k : Bool) (s : State), s.inst.live = true → s.inst.en = true → s.inst.inflight = none → s.inst.busy = true →
    (∃ t u b, exec (.crRd k) s = .next t ∧
      t = { s with inst := { s.inst with iflag := s.inst.iflag && !k, inflight := some ⟨false, false, true, false, false⟩ } } ∧
      completionStep t = .next u ∧ u.inst.trace = s.inst.trace ++ [.rx b 0] ∧ u.inst.rxr = some b ∧ u.inst.busy = true) ∧
    (∃ t u b, exec (.crRdAck k) s = .next t ∧
      t = { s with inst := { s.inst with iflag := s.inst.iflag && !k, inflight := some ⟨false, false, true, false, true⟩ } } ∧
      completionStep t = .next u ∧ u.inst.trace = s.inst.trace ++ [.rx b 1] ∧ u.inst.rxr = some b ∧ u.inst.busy = true) ∧
    (∃ t u b, exec (.crRdSto k) s = .next t ∧
      t = { s with inst := { s.inst with iflag := s.inst.iflag && !k, inflight := some ⟨false, true, true, false, false⟩ } } ∧
      completionStep t = .next u ∧ u.inst.trace = s.inst.trace ++ [.rx b 0, .stop] ∧ u.inst.rxr = some b ∧ u.inst.busy = false) ∧
    ∃ t u b, exec (.crRdAckSto k) s = .next t ∧
      t = { s with inst := { s.inst with iflag := s.inst.iflag && !k, inflight := some ⟨false, true, true, false, true⟩ } } ∧
      completionStep t = .next u ∧ u.inst.trace = s.inst.trace ++ [.rx b 1, .stop] ∧ u.inst.rxr = some b ∧ u.inst.busy = false

/-- R131: in every admitted form the IACK bit clears IF at the write, after the checks, and changes nothing else; the command's completion
sets IF again. -/
def Obligations.AcknowledgeBitIsIndependent : Prop :=
  ∀ (i j : Instr) (c : Cmd) (s : State), i.command = some (c, true) → j.command = some (c, false) → s.inst.live = true →
    ∃ t u, exec i s = .next t ∧ exec j s = .next u ∧
      (u.inst.faults ≠ s.inst.faults → t = u) ∧
      (u.inst.faults = s.inst.faults →
        t = { u with inst := { u.inst with iflag := false } } ∧
        (c.starts = true → t.inst.inflight = some c ∧ ∃ v, completionStep t = .next v ∧ v.inst.iflag = true))

/-! Completion. -/

/-- R141: the completion step performs the phases of the command in flight in the order start, byte, stop, sets IF and clears what is in
flight; it is enabled exactly with a command in flight in a live run. That the step in a live run with none in flight is one that changes nothing,
where R141 says only that it is not enabled, is the model's choice (notes/assumptions/7.md; R155: the controller does nothing on the bus
there). `ev` is the event of the byte phase. -/
def Obligations.CompletionPerformsThePhases : Prop :=
  (∀ s t : State, s.inst.live = false → completionStep s ≠ .next t) ∧
  (∀ s : State, s.inst.live = true → s.inst.inflight = none → completionStep s = .next s) ∧
  ∀ (s : State) (c : Cmd), s.inst.live = true → s.inst.inflight = some c → (c.rd && c.wr) = false →
    (c.wr = true → s.inst.txr.isSome = true) →
    ∃ (t : State) (ev : List BusEvent), completionStep s = .next t ∧
      t.inst.trace =
        s.inst.trace ++ (if c.sta = true then [if s.inst.busy = true then .rstart else .start] else []) ++ ev ++
          (if c.sto = true then [.stop] else []) ∧
      (c.wr = true → ∃ b a, s.inst.txr = some b ∧ ev = [.tx b a] ∧ t.inst.rxack = some a ∧ t.inst.rxr = s.inst.rxr) ∧
      (c.rd = true → ∃ b, ev = [.rx b (BitVec.ofBool c.ack)] ∧ t.inst.rxr = some b ∧ t.inst.rxack.isSome = true) ∧
      (c.rd = false → c.wr = false → ev = [] ∧ t.inst.rxack = s.inst.rxack ∧ t.inst.rxr = s.inst.rxr) ∧
      t.inst.busy = (if c.sto = true then false else c.sta || s.inst.busy) ∧ t.inst.iflag = true ∧ t.inst.inflight = none ∧
      t.inst.prerlo = s.inst.prerlo ∧ t.inst.prerhi = s.inst.prerhi ∧ t.inst.en = s.inst.en ∧ t.inst.ien = s.inst.ien ∧
      t.inst.txr = s.inst.txr ∧ t.inst.faults = s.inst.faults ∧ t.inst.refused = s.inst.refused ∧ t.host = s.host ∧ t.moves = s.moves

/-- The slaves' answers placed from outside are what the completion takes, one for one phase (R145, R147, R152; that they are lists in the
state is the model's choice, notes/assumptions/6.md). -/
def Obligations.PlacedAnswersAreTaken : Prop :=
  (∀ (s : State) (c : Cmd) (b : Byte) (a : Bit) (rest : List Bit), s.inst.live = true → s.inst.inflight = some c → c.wr = true →
    c.rd = false → s.inst.txr = some b → s.slaveAcks = a :: rest →
    ∃ t, completionStep s = .next t ∧ .tx b a ∈ t.inst.trace ∧ t.inst.rxack = some a ∧ t.slaveAcks = rest ∧
      t.slaveBytes = s.slaveBytes) ∧
  ∀ (s : State) (c : Cmd) (b : Byte) (rest : List Byte), s.inst.live = true → s.inst.inflight = some c → c.rd = true →
    c.wr = false → s.slaveBytes = b :: rest →
    ∃ t, completionStep s = .next t ∧ .rx b (BitVec.ofBool c.ack) ∈ t.inst.trace ∧ t.inst.rxr = some b ∧ t.slaveBytes = rest ∧
      t.slaveAcks = s.slaveAcks

/-- R149 and R150: a command with STO ends with a stop and an idle bus, whatever the slave answered and whether or not the bus was busy. -/
def Obligations.StopEndsTheCommand : Prop :=
  ∀ (s t : State) (c : Cmd), s.inst.inflight = some c → c.sto = true → completionStep s = .next t →
    t.inst.busy = false ∧ t.inst.trace.getLast? = some .stop

/-- R151: every completion sets IF, whatever the phases and whatever the slave answered. -/
def Obligations.EveryCompletionSetsTheFlag : Prop :=
  ∀ (s t : State) (c : Cmd), s.inst.inflight = some c → completionStep s = .next t →
    t.inst.iflag = true ∧ t.inst.inflight = none

/-! What changes what. -/

/-- R155: without a completion nothing happens on the bus: no event, no change of Busy, RXR or RxACK, whatever the host does. -/
def Obligations.OnlyCompletionTouchesTheBus : Prop :=
  ∀ s t : State, step s = .next t → s.chooseMove.1 ≠ .controller ∨ s.inst.inflight = none →
    t.inst.trace = s.inst.trace ∧ t.inst.busy = s.inst.busy ∧ t.inst.rxr = s.inst.rxr ∧ t.inst.rxack = s.inst.rxack

/-- The trace is only appended to, and a step adds at most a start, a byte and a stop, in that order (R33, R141). -/
def Obligations.TraceIsOnlyAppendedTo : Prop :=
  ∀ s t : State, s.Inv → step s = .next t →
    ∃ begins byte ends : List BusEvent, t.inst.trace = s.inst.trace ++ (begins ++ byte ++ ends) ∧
      (begins = [] ∨ begins = [.start] ∨ begins = [.rstart]) ∧
      (byte = [] ∨ (∃ b a, byte = [.tx b a]) ∨ ∃ b m, byte = [.rx b m]) ∧ (ends = [] ∨ ends = [.stop])

/-- Busy changes only at the completion of a command with STA (set) or STO (cleared) (R29, R153). -/
def Obligations.BusyFollowsStartAndStop : Prop :=
  ∀ s t : State, step s = .next t → t.inst.busy ≠ s.inst.busy →
    s.chooseMove.1 = .controller ∧ ∃ c, s.inst.inflight = some c ∧
      ((c.sto = true ∧ t.inst.busy = false) ∨ (c.sto = false ∧ c.sta = true ∧ t.inst.busy = true))

/-- R32: IF is set by the completion of every command and cleared by a CR write with IACK = 1, and no other step changes it: a step that
changes it is a completion, or the host's next statement performs such a write. -/
def Obligations.FlagChangesOnlyByCompletionAndAcknowledge : Prop :=
  (∀ (s t : State) (c : Cmd), s.inst.inflight = some c → completionStep s = .next t → t.inst.iflag = true) ∧
  (∀ (i : Instr) (c : Cmd) (s t : State), i.command = some (c, true) → exec i s = .next t → t.inst.faults = s.inst.faults →
    t.inst.iflag = false) ∧
  ∀ s t : State, step s = .next t → t.inst.iflag ≠ s.inst.iflag →
    (t.inst.iflag = true ∧ s.chooseMove.1 = .controller ∧ s.inst.inflight ≠ none) ∨
    (t.inst.iflag = false ∧ s.chooseMove.1 = .host ∧
      ∃ w i c, s.chooseMove.2.NextAccess w ∧ decode w = .ok i ∧ i.command = some (c, true))

/-- The interrupt output is `IEN ∧ IF` (R226: "the spec's own", decision D26), and a step that changes it is a completion, or the host's next
statement performs a CTR write or a CR write with IACK. -/
def Obligations.InterruptOutputFollowsItsBits : Prop :=
  (∀ i : Inst, i.irq = true ↔ i.ien = true ∧ i.iflag = true) ∧
  ∀ s t : State, step s = .next t → t.inst.irq ≠ s.inst.irq →
    (s.chooseMove.1 = .controller ∧ s.inst.inflight ≠ none) ∨
    (s.chooseMove.1 = .host ∧
      ∃ w i, s.chooseMove.2.NextAccess w ∧ decode w = .ok i ∧ ((∃ d, i = .wrCtr d) ∨ ∃ c, i.command = some (c, true)))

/-- R220: an access that records a fault records one reason and has no other effect. -/
def Obligations.FaultHasNoOtherEffect : Prop :=
  ∀ (i : Instr) (s t : State), exec i s = .next t → t.inst.faults ≠ s.inst.faults →
    ∃ r, t = { s with inst := { s.inst with faults := s.inst.faults ++ [r] } }

/-- The frame of the five reads: the controller's state is as before, or as before with one unwritten-read fault; of the host only the word
read changes (R68). The draw counter, the model's own, may move. -/
def Obligations.ReadsLeaveTheControllerAlone : Prop :=
  ∀ (i : Instr) (s t : State), i.isWrite = false → exec i s = .next t →
    (t.inst = s.inst ∨ ∃ r, t.inst = { s.inst with faults := s.inst.faults ++ [.unwrittenRead r] }) ∧
    t.host = { s.host with readData := t.host.readData } ∧ t.moves = s.moves ∧ t.slaveAcks = s.slaveAcks ∧ t.slaveBytes = s.slaveBytes

/-- The frame of the writes to offsets 0 to 3: only the register written, the fault list and the refusal mark can change; and repeating a
write that completed leaves the same state (R68). -/
def Obligations.RegisterWriteFrame : Prop :=
  ∀ (d : Byte) (s t : State),
    (exec (.wrPrerlo d) s = .next t →
      t = { s with inst := { s.inst with prerlo := t.inst.prerlo, faults := t.inst.faults } } ∧
      (t.inst.live = true → exec (.wrPrerlo d) t = .next t)) ∧
    (exec (.wrPrerhi d) s = .next t →
      t = { s with inst := { s.inst with prerhi := t.inst.prerhi, faults := t.inst.faults } } ∧
      (t.inst.live = true → exec (.wrPrerhi d) t = .next t)) ∧
    (exec (.wrCtr d) s = .next t →
      t = { s with inst := { s.inst with en := t.inst.en, ien := t.inst.ien, faults := t.inst.faults, refused := t.inst.refused } } ∧
      (t.inst.live = true → exec (.wrCtr d) t = .next t)) ∧
    (exec (.wrTxr d) s = .next t →
      t = { s with inst := { s.inst with txr := t.inst.txr, faults := t.inst.faults } } ∧
      (t.inst.live = true → exec (.wrTxr d) t = .next t))

/-- The frame of the eleven command forms: only IF, the command in flight and the fault list can change; in particular no bus event, no data
register and no prescale (R119, R142: never completed in the step of its own write). -/
def Obligations.CommandWriteFrame : Prop :=
  ∀ (i : Instr) (c : Cmd) (k : Bool) (s t : State), i.command = some (c, k) → exec i s = .next t →
    t = { s with inst := { s.inst with iflag := t.inst.iflag, inflight := t.inst.inflight, faults := t.inst.faults } } ∧
    (t.inst.faults ≠ s.inst.faults → t.inst.iflag = s.inst.iflag ∧ t.inst.inflight = s.inst.inflight)

/-- No rule of the command engine reads the prescale (R22, R233): accesses other than the four prescale accesses, and completions, do the same
whatever PRER holds. -/
def Obligations.PrescaleIsNeverRead : Prop :=
  ∀ (lo hi : Option Byte) (s t : State),
    (∀ i : Instr, i ≠ .rdPrerlo → i ≠ .rdPrerhi → (∀ d, i ≠ .wrPrerlo d) → (∀ d, i ≠ .wrPrerhi d) → exec i s = .next t →
      exec i { s with inst := { s.inst with prerlo := lo, prerhi := hi } } =
        .next { t with inst := { t.inst with prerlo := lo, prerhi := hi } }) ∧
    (completionStep s = .next t →
      completionStep { s with inst := { s.inst with prerlo := lo, prerhi := hi } } =
        .next { t with inst := { t.inst with prerlo := lo, prerhi := hi } })

/-! Bus accesses and operands. -/

/-- Exactly an aligned 32-bit access at word offsets 0 to 4 reaches a register, as `HostRead(k)` or `HostWrite(k, v)`; any other access that
touches the window `BASE .. BASE+31` is refused and has no effect (R65). That the window test takes in 64-bit accesses and accesses over the
window's lower edge, that alignment is measured from BASE, and that addresses do not wrap, are the model's: notes/assumptions/16.md, 27.md,
28.md, 31.md, 32.md. -/
def Obligations.OnlyAlignedWordAccessesReachRegisters : Prop :=
  (∀ (lo a k : Nat) (z : AccessSize), busTargetAt lo a z = .register k ↔ z = .word ∧ a = lo + 4 * k ∧ k ≤ 4) ∧
  (∀ (lo a : Nat) (z : AccessSize), lo < a + z.bytes → a < lo + 32 → (∀ k, busTargetAt lo a z ≠ .register k) →
    busTargetAt lo a z = .illegal) ∧
  (∀ (a x : Nat) (z : AccessSize) (s : State), busTarget a z = .illegal →
    ∃ t, hostStmt (.memRead a z x) s = .next t ∧ t.inst = { s.inst with refused := true }) ∧
  (∀ (a : Nat) (z : AccessSize) (e : Expr) (v : Word) (s : State), busTarget a z = .illegal → s.eval e = some v →
    ∃ t, hostStmt (.memWrite a z e) s = .next t ∧ t.inst = { s.inst with refused := true }) ∧
  ∀ (k x : Nat) (e : Expr) (v : Word) (s : State), k ≤ 4 → s.eval e = some v →
    hostStmt (.memRead (registerAddress 0 k) .word x) s = runAccess (readWord k) (some x) s ∧
    hostStmt (.memWrite (registerAddress 0 k) .word e) s = runAccess (writeWord k v) none s

/-- Bits 31:8 of a written word play no part (R64). -/
def Obligations.UpperWriteBitsAreIgnored : Prop :=
  ∀ (k : Nat) (v v' : Word) (dest : Option Nat) (s : State), v.extractLsb' 0 8 = v'.extractLsb' 0 8 →
    runAccess (writeWord k v) dest s = runAccess (writeWord k v') dest s

/-- The address byte (R84): for an address below 128 it is the 7-bit address above the direction bit; and it is the byte that READ
(direction 1) and WRITE (direction 0) write to TXR and then send with a start (R186, R187), except that a core never enabled faults at the
command (R196). -/
def Obligations.AddressByteIsAddressAndDirection : Prop :=
  (∀ (address : Nat) (dir : Bit), address < 128 →
    addrByte address dir = BitVec.ofNat 7 address ++ dir ∧ addressOf (addrByte address dir) = BitVec.ofNat 7 address ∧
    directionOf (addrByte address dir) = dir) ∧
  ∀ (s : State) (i addr len : Word) (buf : List Byte) (c : Call) (dir : Bit) (ms : List Move), s.inst.live = true →
    s.moves = [.host, .host] ++ ms → (c = .read i addr len buf ∧ dir = 1) ∨ (c = .write i addr buf len ∧ dir = 0) →
    s.host.program = c.program → s.host.pc = labelIndex lblAddress c.lines - 2 →
    ((∀ cmd, s.inst.inflight = some cmd → cmd.wr = false) →
      ∃ t, runSteps 1 s = .next t ∧ t.inst = { s.inst with txr := some (addrByte addr.toNat dir) }) ∧
    (s.inst.en = true → s.inst.inflight = none →
      ∃ t u a, runSteps 2 s = .next t ∧
        t.inst = { s.inst with txr := some (addrByte addr.toNat dir), inflight := some ⟨true, false, false, true, false⟩ } ∧
        completionStep t = .next u ∧
        u.inst.trace = s.inst.trace ++ [if s.inst.busy = true then .rstart else .start, .tx (addrByte addr.toNat dir) a]) ∧
    (s.inst.en = false → s.inst.inflight = none →
      ∃ t, runSteps 2 s = .next t ∧
        t.inst = { s.inst with txr := some (addrByte addr.toNat dir), faults := s.inst.faults ++ [.commandWhileDisabled] })

/-- The two prescale bytes are the 16 low bits of the prescale (R85), which is the floor of `F_SRC / (5 * baud)` (R181). -/
def Obligations.PrescaleIsTheFloorInTwoBytes : Prop :=
  (∀ p : Nat, prescaleHigh p ++ prescaleLow p = BitVec.ofNat 16 p) ∧
  ∀ baud : Nat, 1 ≤ baud → prescale baud * (5 * baud) ≤ Config.fSrc ∧ Config.fSrc < (prescale baud + 1) * (5 * baud)

/-! The reference sequences. The host moves in each step (`List.replicate n .host` at the head of `moves`). -/

/-- R182 (the number of steps is the model's, notes/assumptions/24.md, here and below): `ENABLE 0` ends, after its statements, with EN = 1, IEN = 0 and the default prescale, with no bus event and no result; on an active
enabled core its first write faults. -/
def Obligations.EnableConfigures : Prop :=
  ∀ (s : State) (rest : List Call) (ms : List Move), s.inst.live = true → s.fetch = none → s.host.calls = .enable 0 :: rest →
    s.moves = List.replicate 8 .host ++ ms →
    (s.inst.en = false ∨ (s.inst.inflight = none ∧ s.inst.busy = false) →
      ∃ t, runSteps 8 s = .next t ∧
        t.inst =
          { s.inst with
            prerlo := some (prescaleLow (prescale 100000)), prerhi := some (prescaleHigh (prescale 100000)), en := true, ien := false } ∧
        t.host.results = s.host.results ++ [⟨none, []⟩] ∧ t.host.calls = rest ∧ t.fetch = none ∧ t.moves = ms) ∧
    (s.inst.en = true → s.inst.inflight ≠ none ∨ s.inst.busy = true →
      ∃ t, runSteps 4 s = .next t ∧ t.inst = { s.inst with faults := s.inst.faults ++ [.disableWhileActive] })

/-- R193: `SET_CLOCK 0, baud` run twice in a row with the same `baud` leaves the same register state after each call, if the first does not
fault; on an active enabled core the first faults, and the second is never reached. A disabled core is idle in every state that meets the
invariant of StepKeepsInvariant. -/
def Obligations.SetClockIsIdempotent : Prop :=
  ∀ (s : State) (baud : Nat) (ms : List Move), s.inst.live = true → s.fetch = none → 1 ≤ baud →
    s.host.calls = [.setClock 0 baud, .setClock 0 baud] → s.moves = List.replicate 16 .host ++ ms →
    (s.inst.en = true → s.inst.inflight ≠ none ∨ s.inst.busy = true →
      ∃ t, runSteps 4 s = .next t ∧ t.inst = { s.inst with faults := s.inst.faults ++ [.disableWhileActive] } ∧
        t.host.calls = [.setClock 0 baud] ∧ ∀ u, step t ≠ .next u) ∧
    (s.inst.inflight = none → s.inst.busy = false →
      ∃ t u, runSteps 8 s = .next t ∧ runSteps 16 s = .next u ∧ t.inst = u.inst ∧
        t.inst =
          { s.inst with
            prerlo := some (prescaleLow (prescale baud)), prerhi := some (prescaleHigh (prescale baud)), en := true, ien := false })

/-- R184: `DISABLE 0` writes STO once, polls nothing and leaves EN set; it faults on a disabled core and over a command in flight. -/
def Obligations.DisableIssuesOneStop : Prop :=
  ∀ (s : State) (rest : List Call) (ms : List Move), s.inst.live = true → s.fetch = none → s.host.calls = .disable 0 :: rest →
    s.moves = List.replicate 4 .host ++ ms →
    (s.inst.en = true → s.inst.inflight = none →
      ∃ t, runSteps 4 s = .next t ∧ t.inst = { s.inst with inflight := some ⟨false, true, false, false, false⟩ } ∧ t.inst.en = true ∧
        t.host.results = s.host.results ++ [⟨none, []⟩] ∧ t.fetch = none) ∧
    (s.inst.en = false →
      ∃ t, runSteps 3 s = .next t ∧ t.inst = { s.inst with faults := s.inst.faults ++ [.commandWhileDisabled] }) ∧
    (s.inst.en = true → s.inst.inflight ≠ none →
      ∃ t, runSteps 3 s = .next t ∧ t.inst = { s.inst with faults := s.inst.faults ++ [.commandWhileInFlight] })

/-- R180: with an index `i ≥ N` every operation ends with no register access; READ and WRITE return `RES_OUT_OF_RANGE` and leave the
caller's buffer untouched. -/
def Obligations.OutOfRangeIndexTouchesNothing : Prop :=
  ∀ (s : State) (i addr len : Word) (baud : Nat) (buf : List Byte) (rest : List Call) (ms : List Move),
    s.inst.live = true → s.fetch = none → Config.numInstances ≤ i.toNat → s.moves = List.replicate 3 .host ++ ms →
    (∀ c, c = .enable i ∨ c = .setClock i baud ∨ c = .disable i → s.host.calls = c :: rest →
      ∃ t, runSteps 3 s = .next t ∧ t.inst = s.inst ∧ t.host.results = s.host.results ++ [⟨none, []⟩] ∧ t.host.calls = rest) ∧
    ∀ c, c = .read i addr len buf ∨ c = .write i addr buf len → s.host.calls = c :: rest →
      ∃ t, runSteps 3 s = .next t ∧ t.inst = s.inst ∧ t.host.results = s.host.results ++ [⟨some Config.resOutOfRange, buf⟩] ∧
        t.host.calls = rest

/-- R185: a transfer whose address is 128 or more, whose length is 0, or whose length the buffer does not hold performs no access and sets the
refusal mark; so does `SET_CLOCK` with `baud = 0` (R181). -/
def Obligations.MalformedCallsAreRefused : Prop :=
  ∀ (s : State) (addr len : Word) (buf : List Byte) (rest : List Call) (ms : List Move),
    s.inst.live = true → s.fetch = none → s.moves = List.replicate 6 .host ++ ms →
    (128 ≤ addr.toNat ∨ len = 0 ∨ buf.length < len.toNat →
      ∀ c, c = .read 0 addr len buf ∨ c = .write 0 addr buf len → s.host.calls = c :: rest →
        ∃ n t, n ≤ 6 ∧ runSteps n s = .next t ∧ t.inst = { s.inst with refused := true }) ∧
    (s.host.calls = .setClock 0 0 :: rest →
      ∃ t, runSteps 3 s = .next t ∧ t.inst = { s.inst with refused := true })

/-- `WAIT_TIP` at `p` (R98, R188): with nothing in flight the poll ends at its first read; with a read or write command in flight it goes
round; with a stop alone in flight TIP is a draw, and the poll ends or goes round as the draw says. -/
def Obligations.PollFollowsTransferInProgress : Prop :=
  ∀ (s : State) (p : Nat) (ms : List Move), s.inst.live = true → s.moves = [.host, .host] ++ ms → s.host.pc = p →
    s.host.program[p]? = some (.read .sr varS) →
    s.host.program[p + 1]? = some (.ifGoto (.eq (.bit (.var varS) 1) (num 1)) p) →
    (s.inst.inflight = none → ∃ t, runSteps 2 s = .next t ∧ t.host.pc = p + 2 ∧ t.inst = s.inst ∧ t.moves = ms) ∧
    (∀ c, s.inst.inflight = some c → c.rd = true ∨ c.wr = true →
      ∃ t, runSteps 2 s = .next t ∧ t.host.pc = p ∧ t.inst = s.inst ∧ t.moves = ms) ∧
    ∀ c, s.inst.inflight = some c → c.rd = false → c.wr = false →
      ∃ t, runSteps 2 s = .next t ∧ t.host.pc = (if Config.drawBit s.draws 1 = 1 then p else p + 2) ∧ t.inst = s.inst ∧ t.moves = ms

/-- R99: `CHECK_ACK l` at `p` goes to `l` exactly when RxACK reads 1; with nothing in flight that is the slave's last level. -/
def Obligations.CheckAckBranchesOnNack : Prop :=
  ∀ (s : State) (p l : Nat) (a : Bit) (ms : List Move), s.inst.live = true → s.moves = [.host, .host] ++ ms → s.host.pc = p →
    s.host.program[p]? = some (.read .sr varS) →
    s.host.program[p + 1]? = some (.ifGoto (.eq (.bit (.var varS) 7) (num 1)) l) →
    s.inst.inflight = none → s.inst.rxack = some a →
    ∃ t, runSteps 2 s = .next t ∧ t.host.pc = (if a = 1 then l else p + 2) ∧ t.inst = s.inst ∧ t.moves = ms

/-- At the address CHECK_ACK of READ and WRITE a NACK ends the call with `RES_NACK`: no further command, no stop, the bus left as it is
(R186, R187, R191, R195). -/
def Obligations.AddressNackAbortsWithoutStop : Prop :=
  ∀ (s : State) (i addr len : Word) (buf : List Byte) (c : Call) (ms : List Move), s.inst.live = true →
    s.moves = List.replicate 3 .host ++ ms → c = .read i addr len buf ∨ c = .write i addr buf len →
    s.host.program = c.program → s.host.pc = labelIndex lblAddressEnd c.lines - 2 →
    s.inst.inflight = none → s.inst.rxack = some 1 →
    ∃ t, runSteps 3 s = .next t ∧ t.inst = s.inst ∧ t.host.results = s.host.results ++ [⟨some Config.resNack, s.host.buf⟩] ∧
      t.host.program = []

/-- At a data byte's CHECK_ACK of WRITE a NACK ends the call with `RES_NACK`: no further command, the bus left as it is (R187, R191). -/
def Obligations.DataNackAbortsTheWrite : Prop :=
  ∀ (s : State) (i addr len : Word) (buf : List Byte) (ms : List Move), s.inst.live = true → s.moves = List.replicate 3 .host ++ ms →
    s.host.program = (Call.write i addr buf len).program → s.host.pc = labelIndex lblDataEnd (writeLines i addr len) - 2 →
    s.inst.inflight = none → s.inst.rxack = some 1 →
    ∃ t, runSteps 3 s = .next t ∧ t.inst = s.inst ∧ t.host.results = s.host.results ++ [⟨some Config.resNack, s.host.buf⟩] ∧
      t.host.program = []

/-- READ copies the received byte into the caller's buffer (R186): after a data byte's poll the byte in RXR is stored at index `k`, and nothing
of the controller changes. -/
def Obligations.ReadCopiesTheReceivedByte : Prop :=
  ∀ (s : State) (i addr len k : Word) (b : Byte) (buf : List Byte) (ms : List Move), s.inst.live = true → s.moves = [.host, .host] ++ ms →
    s.host.program = (Call.read i addr len buf).program → s.host.pc = labelIndex lblDataEnd (readLines i addr len) →
    varsOrdered s.host.vars → lookupVar varK s.host.vars = some k → k.toNat < s.host.buf.length →
    s.inst.inflight = none → s.inst.rxr = some b →
    ∃ t, runSteps 2 s = .next t ∧ t.inst = s.inst ∧ t.host.buf = s.host.buf.set k.toNat b ∧ t.host.pc = s.host.pc + 2 ∧
      t.host.results = s.host.results

/-- The transaction state of a running READ or WRITE by the host's position (R190), with the byte counter `k` of DATA_PHASE; and the
positions with no state: between two rows of R190's table (notes/assumptions/21.md), and the return of `RES_OUT_OF_RANGE` and the refusal,
which the table does not list (notes/assumptions/34.md). A host that runs no transfer is in no state. -/
def Obligations.TransactionStatesByPosition : Prop :=
  (∀ (s : State) (i addr len : Word) (buf : List Byte) (lines : List Line) (pc : Nat), s.host.pc = pc →
    (s.host.current = some (.read i addr len buf) ∧ lines = readLines i addr len) ∨
      (s.host.current = some (.write i addr buf len) ∧ lines = writeLines i addr len) →
    (pc < labelIndex lblAddress lines → s.txnState = some .idle) ∧
    (labelIndex lblAddress lines ≤ pc → pc < labelIndex lblAddressEnd lines → s.txnState = some .addressPhase) ∧
    (labelIndex lblAddressEnd lines ≤ pc → pc < labelIndex lblData lines → s.txnState = none) ∧
    (labelIndex lblData lines ≤ pc → pc < labelIndex lblLast lines → s.txnState = some (.dataPhase (s.varValue varK).toNat)) ∧
    (labelIndex lblLast lines ≤ pc → pc < labelIndex lblDone lines → s.txnState = none) ∧
    (labelIndex lblDone lines ≤ pc → pc < labelIndex lblDataEnd lines → s.txnState = some (.dataPhase (s.varValue varK).toNat)) ∧
    (labelIndex lblDataEnd lines ≤ pc → pc < labelIndex lblSuccess lines → s.txnState = none) ∧
    (pc = labelIndex lblSuccess lines → s.txnState = some .complete) ∧
    (pc = labelIndex lblNack lines → s.txnState = some .aborted) ∧
    (labelIndex lblOutOfRange lines ≤ pc → s.txnState = none)) ∧
  ∀ s : State, (∀ i addr len buf, s.host.current ≠ some (.read i addr len buf)) →
    (∀ i addr len buf, s.host.current ≠ some (.write i addr buf len)) → s.txnState = none

/-- WRITE sends the bytes of the caller's buffer (R187): at a byte's TXR write, on an enabled idle core in an open transaction, the next three
statements leave byte `k` of the buffer in TXR and its write command in flight, with a stop for the last byte alone. -/
def Obligations.WriteSendsTheBufferByte : Prop :=
  ∀ (s : State) (i addr len k : Word) (b : Byte) (buf : List Byte) (ms : List Move), s.inst.live = true →
    s.moves = List.replicate 3 .host ++ ms → s.host.program = (Call.write i addr buf len).program →
    s.host.pc = labelIndex lblLoop (writeLines i addr len) → lookupVar varK s.host.vars = some k → s.host.buf[k.toNat]? = some b →
    s.inst.en = true → s.inst.inflight = none → s.inst.busy = true →
    ∃ t, runSteps 3 s = .next t ∧
      t.inst = { s.inst with txr := some b, inflight := some ⟨false, decide (k = len - 1), false, true, false⟩ } ∧
      t.host.pc = labelIndex (if k = len - 1 then lblDone else lblData) (writeLines i addr len)

/-- READ asks for a byte (R186): at a byte's choice of command, on an enabled idle core in an open transaction, the next two statements leave
a read command in flight, answering NACK and stopping for the last byte alone. -/
def Obligations.ReadRequestsAByte : Prop :=
  ∀ (s : State) (i addr len k : Word) (buf : List Byte) (ms : List Move), s.inst.live = true → s.moves = [.host, .host] ++ ms →
    s.host.program = (Call.read i addr len buf).program → s.host.pc = labelIndex lblLoop (readLines i addr len) →
    lookupVar varK s.host.vars = some k → s.inst.en = true → s.inst.inflight = none → s.inst.busy = true →
    ∃ t, runSteps 2 s = .next t ∧
      t.inst = { s.inst with inflight := some ⟨false, decide (k = len - 1), true, false, decide (k = len - 1)⟩ } ∧
      t.host.pc = labelIndex (if k = len - 1 then lblDone else lblData) (readLines i addr len)
end

