-- ==== Sys2Proof/Laws/State.lean ====
section
/-! SUPPORT. One lemma per field per update of the state, true by rfl: later proofs unfold no record update. -/

namespace Sys2Proof.Machine

@[simp] theorem State.setPrerlo_prerlo (s : State) (d : Byte) : (s.setPrerlo d).inst.prerlo = some d := rfl
@[simp] theorem State.setPrerlo_prerhi (s : State) (d : Byte) : (s.setPrerlo d).inst.prerhi = s.inst.prerhi := rfl
@[simp] theorem State.setPrerlo_en (s : State) (d : Byte) : (s.setPrerlo d).inst.en = s.inst.en := rfl
@[simp] theorem State.setPrerlo_ien (s : State) (d : Byte) : (s.setPrerlo d).inst.ien = s.inst.ien := rfl
@[simp] theorem State.setPrerlo_txr (s : State) (d : Byte) : (s.setPrerlo d).inst.txr = s.inst.txr := rfl
@[simp] theorem State.setPrerlo_rxr (s : State) (d : Byte) : (s.setPrerlo d).inst.rxr = s.inst.rxr := rfl
@[simp] theorem State.setPrerlo_rxack (s : State) (d : Byte) : (s.setPrerlo d).inst.rxack = s.inst.rxack := rfl
@[simp] theorem State.setPrerlo_busy (s : State) (d : Byte) : (s.setPrerlo d).inst.busy = s.inst.busy := rfl
@[simp] theorem State.setPrerlo_iflag (s : State) (d : Byte) : (s.setPrerlo d).inst.iflag = s.inst.iflag := rfl
@[simp] theorem State.setPrerlo_inflight (s : State) (d : Byte) : (s.setPrerlo d).inst.inflight = s.inst.inflight := rfl
@[simp] theorem State.setPrerlo_trace (s : State) (d : Byte) : (s.setPrerlo d).inst.trace = s.inst.trace := rfl
@[simp] theorem State.setPrerlo_faults (s : State) (d : Byte) : (s.setPrerlo d).inst.faults = s.inst.faults := rfl
@[simp] theorem State.setPrerlo_refused (s : State) (d : Byte) : (s.setPrerlo d).inst.refused = s.inst.refused := rfl
@[simp] theorem State.setPrerlo_host (s : State) (d : Byte) : (s.setPrerlo d).host = s.host := rfl
@[simp] theorem State.setPrerlo_moves (s : State) (d : Byte) : (s.setPrerlo d).moves = s.moves := rfl
@[simp] theorem State.setPrerlo_slaveAcks (s : State) (d : Byte) : (s.setPrerlo d).slaveAcks = s.slaveAcks := rfl
@[simp] theorem State.setPrerlo_slaveBytes (s : State) (d : Byte) : (s.setPrerlo d).slaveBytes = s.slaveBytes := rfl
@[simp] theorem State.setPrerlo_draws (s : State) (d : Byte) : (s.setPrerlo d).draws = s.draws := rfl

@[simp] theorem State.setPrerhi_prerlo (s : State) (d : Byte) : (s.setPrerhi d).inst.prerlo = s.inst.prerlo := rfl
@[simp] theorem State.setPrerhi_prerhi (s : State) (d : Byte) : (s.setPrerhi d).inst.prerhi = some d := rfl
@[simp] theorem State.setPrerhi_en (s : State) (d : Byte) : (s.setPrerhi d).inst.en = s.inst.en := rfl
@[simp] theorem State.setPrerhi_ien (s : State) (d : Byte) : (s.setPrerhi d).inst.ien = s.inst.ien := rfl
@[simp] theorem State.setPrerhi_txr (s : State) (d : Byte) : (s.setPrerhi d).inst.txr = s.inst.txr := rfl
@[simp] theorem State.setPrerhi_rxr (s : State) (d : Byte) : (s.setPrerhi d).inst.rxr = s.inst.rxr := rfl
@[simp] theorem State.setPrerhi_rxack (s : State) (d : Byte) : (s.setPrerhi d).inst.rxack = s.inst.rxack := rfl
@[simp] theorem State.setPrerhi_busy (s : State) (d : Byte) : (s.setPrerhi d).inst.busy = s.inst.busy := rfl
@[simp] theorem State.setPrerhi_iflag (s : State) (d : Byte) : (s.setPrerhi d).inst.iflag = s.inst.iflag := rfl
@[simp] theorem State.setPrerhi_inflight (s : State) (d : Byte) : (s.setPrerhi d).inst.inflight = s.inst.inflight := rfl
@[simp] theorem State.setPrerhi_trace (s : State) (d : Byte) : (s.setPrerhi d).inst.trace = s.inst.trace := rfl
@[simp] theorem State.setPrerhi_faults (s : State) (d : Byte) : (s.setPrerhi d).inst.faults = s.inst.faults := rfl
@[simp] theorem State.setPrerhi_refused (s : State) (d : Byte) : (s.setPrerhi d).inst.refused = s.inst.refused := rfl
@[simp] theorem State.setPrerhi_host (s : State) (d : Byte) : (s.setPrerhi d).host = s.host := rfl
@[simp] theorem State.setPrerhi_moves (s : State) (d : Byte) : (s.setPrerhi d).moves = s.moves := rfl
@[simp] theorem State.setPrerhi_slaveAcks (s : State) (d : Byte) : (s.setPrerhi d).slaveAcks = s.slaveAcks := rfl
@[simp] theorem State.setPrerhi_slaveBytes (s : State) (d : Byte) : (s.setPrerhi d).slaveBytes = s.slaveBytes := rfl
@[simp] theorem State.setPrerhi_draws (s : State) (d : Byte) : (s.setPrerhi d).draws = s.draws := rfl

@[simp] theorem State.setCtr_prerlo (s : State) (e i : Bool) : (s.setCtr e i).inst.prerlo = s.inst.prerlo := rfl
@[simp] theorem State.setCtr_prerhi (s : State) (e i : Bool) : (s.setCtr e i).inst.prerhi = s.inst.prerhi := rfl
@[simp] theorem State.setCtr_en (s : State) (e i : Bool) : (s.setCtr e i).inst.en = e := rfl
@[simp] theorem State.setCtr_ien (s : State) (e i : Bool) : (s.setCtr e i).inst.ien = i := rfl
@[simp] theorem State.setCtr_txr (s : State) (e i : Bool) : (s.setCtr e i).inst.txr = s.inst.txr := rfl
@[simp] theorem State.setCtr_rxr (s : State) (e i : Bool) : (s.setCtr e i).inst.rxr = s.inst.rxr := rfl
@[simp] theorem State.setCtr_rxack (s : State) (e i : Bool) : (s.setCtr e i).inst.rxack = s.inst.rxack := rfl
@[simp] theorem State.setCtr_busy (s : State) (e i : Bool) : (s.setCtr e i).inst.busy = s.inst.busy := rfl
@[simp] theorem State.setCtr_iflag (s : State) (e i : Bool) : (s.setCtr e i).inst.iflag = s.inst.iflag := rfl
@[simp] theorem State.setCtr_inflight (s : State) (e i : Bool) : (s.setCtr e i).inst.inflight = s.inst.inflight := rfl
@[simp] theorem State.setCtr_trace (s : State) (e i : Bool) : (s.setCtr e i).inst.trace = s.inst.trace := rfl
@[simp] theorem State.setCtr_faults (s : State) (e i : Bool) : (s.setCtr e i).inst.faults = s.inst.faults := rfl
@[simp] theorem State.setCtr_refused (s : State) (e i : Bool) : (s.setCtr e i).inst.refused = s.inst.refused := rfl
@[simp] theorem State.setCtr_host (s : State) (e i : Bool) : (s.setCtr e i).host = s.host := rfl
@[simp] theorem State.setCtr_moves (s : State) (e i : Bool) : (s.setCtr e i).moves = s.moves := rfl
@[simp] theorem State.setCtr_slaveAcks (s : State) (e i : Bool) : (s.setCtr e i).slaveAcks = s.slaveAcks := rfl
@[simp] theorem State.setCtr_slaveBytes (s : State) (e i : Bool) : (s.setCtr e i).slaveBytes = s.slaveBytes := rfl
@[simp] theorem State.setCtr_draws (s : State) (e i : Bool) : (s.setCtr e i).draws = s.draws := rfl

@[simp] theorem State.setTxr_prerlo (s : State) (d : Byte) : (s.setTxr d).inst.prerlo = s.inst.prerlo := rfl
@[simp] theorem State.setTxr_prerhi (s : State) (d : Byte) : (s.setTxr d).inst.prerhi = s.inst.prerhi := rfl
@[simp] theorem State.setTxr_en (s : State) (d : Byte) : (s.setTxr d).inst.en = s.inst.en := rfl
@[simp] theorem State.setTxr_ien (s : State) (d : Byte) : (s.setTxr d).inst.ien = s.inst.ien := rfl
@[simp] theorem State.setTxr_txr (s : State) (d : Byte) : (s.setTxr d).inst.txr = some d := rfl
@[simp] theorem State.setTxr_rxr (s : State) (d : Byte) : (s.setTxr d).inst.rxr = s.inst.rxr := rfl
@[simp] theorem State.setTxr_rxack (s : State) (d : Byte) : (s.setTxr d).inst.rxack = s.inst.rxack := rfl
@[simp] theorem State.setTxr_busy (s : State) (d : Byte) : (s.setTxr d).inst.busy = s.inst.busy := rfl
@[simp] theorem State.setTxr_iflag (s : State) (d : Byte) : (s.setTxr d).inst.iflag = s.inst.iflag := rfl
@[simp] theorem State.setTxr_inflight (s : State) (d : Byte) : (s.setTxr d).inst.inflight = s.inst.inflight := rfl
@[simp] theorem State.setTxr_trace (s : State) (d : Byte) : (s.setTxr d).inst.trace = s.inst.trace := rfl
@[simp] theorem State.setTxr_faults (s : State) (d : Byte) : (s.setTxr d).inst.faults = s.inst.faults := rfl
@[simp] theorem State.setTxr_refused (s : State) (d : Byte) : (s.setTxr d).inst.refused = s.inst.refused := rfl
@[simp] theorem State.setTxr_host (s : State) (d : Byte) : (s.setTxr d).host = s.host := rfl
@[simp] theorem State.setTxr_moves (s : State) (d : Byte) : (s.setTxr d).moves = s.moves := rfl
@[simp] theorem State.setTxr_slaveAcks (s : State) (d : Byte) : (s.setTxr d).slaveAcks = s.slaveAcks := rfl
@[simp] theorem State.setTxr_slaveBytes (s : State) (d : Byte) : (s.setTxr d).slaveBytes = s.slaveBytes := rfl
@[simp] theorem State.setTxr_draws (s : State) (d : Byte) : (s.setTxr d).draws = s.draws := rfl

@[simp] theorem State.setRxr_prerlo (s : State) (d : Byte) : (s.setRxr d).inst.prerlo = s.inst.prerlo := rfl
@[simp] theorem State.setRxr_prerhi (s : State) (d : Byte) : (s.setRxr d).inst.prerhi = s.inst.prerhi := rfl
@[simp] theorem State.setRxr_en (s : State) (d : Byte) : (s.setRxr d).inst.en = s.inst.en := rfl
@[simp] theorem State.setRxr_ien (s : State) (d : Byte) : (s.setRxr d).inst.ien = s.inst.ien := rfl
@[simp] theorem State.setRxr_txr (s : State) (d : Byte) : (s.setRxr d).inst.txr = s.inst.txr := rfl
@[simp] theorem State.setRxr_rxr (s : State) (d : Byte) : (s.setRxr d).inst.rxr = some d := rfl
@[simp] theorem State.setRxr_rxack (s : State) (d : Byte) : (s.setRxr d).inst.rxack = s.inst.rxack := rfl
@[simp] theorem State.setRxr_busy (s : State) (d : Byte) : (s.setRxr d).inst.busy = s.inst.busy := rfl
@[simp] theorem State.setRxr_iflag (s : State) (d : Byte) : (s.setRxr d).inst.iflag = s.inst.iflag := rfl
@[simp] theorem State.setRxr_inflight (s : State) (d : Byte) : (s.setRxr d).inst.inflight = s.inst.inflight := rfl
@[simp] theorem State.setRxr_trace (s : State) (d : Byte) : (s.setRxr d).inst.trace = s.inst.trace := rfl
@[simp] theorem State.setRxr_faults (s : State) (d : Byte) : (s.setRxr d).inst.faults = s.inst.faults := rfl
@[simp] theorem State.setRxr_refused (s : State) (d : Byte) : (s.setRxr d).inst.refused = s.inst.refused := rfl
@[simp] theorem State.setRxr_host (s : State) (d : Byte) : (s.setRxr d).host = s.host := rfl
@[simp] theorem State.setRxr_moves (s : State) (d : Byte) : (s.setRxr d).moves = s.moves := rfl
@[simp] theorem State.setRxr_slaveAcks (s : State) (d : Byte) : (s.setRxr d).slaveAcks = s.slaveAcks := rfl
@[simp] theorem State.setRxr_slaveBytes (s : State) (d : Byte) : (s.setRxr d).slaveBytes = s.slaveBytes := rfl
@[simp] theorem State.setRxr_draws (s : State) (d : Byte) : (s.setRxr d).draws = s.draws := rfl

@[simp] theorem State.setRxack_prerlo (s : State) (a : Bit) : (s.setRxack a).inst.prerlo = s.inst.prerlo := rfl
@[simp] theorem State.setRxack_prerhi (s : State) (a : Bit) : (s.setRxack a).inst.prerhi = s.inst.prerhi := rfl
@[simp] theorem State.setRxack_en (s : State) (a : Bit) : (s.setRxack a).inst.en = s.inst.en := rfl
@[simp] theorem State.setRxack_ien (s : State) (a : Bit) : (s.setRxack a).inst.ien = s.inst.ien := rfl
@[simp] theorem State.setRxack_txr (s : State) (a : Bit) : (s.setRxack a).inst.txr = s.inst.txr := rfl
@[simp] theorem State.setRxack_rxr (s : State) (a : Bit) : (s.setRxack a).inst.rxr = s.inst.rxr := rfl
@[simp] theorem State.setRxack_rxack (s : State) (a : Bit) : (s.setRxack a).inst.rxack = some a := rfl
@[simp] theorem State.setRxack_busy (s : State) (a : Bit) : (s.setRxack a).inst.busy = s.inst.busy := rfl
@[simp] theorem State.setRxack_iflag (s : State) (a : Bit) : (s.setRxack a).inst.iflag = s.inst.iflag := rfl
@[simp] theorem State.setRxack_inflight (s : State) (a : Bit) : (s.setRxack a).inst.inflight = s.inst.inflight := rfl
@[simp] theorem State.setRxack_trace (s : State) (a : Bit) : (s.setRxack a).inst.trace = s.inst.trace := rfl
@[simp] theorem State.setRxack_faults (s : State) (a : Bit) : (s.setRxack a).inst.faults = s.inst.faults := rfl
@[simp] theorem State.setRxack_refused (s : State) (a : Bit) : (s.setRxack a).inst.refused = s.inst.refused := rfl
@[simp] theorem State.setRxack_host (s : State) (a : Bit) : (s.setRxack a).host = s.host := rfl
@[simp] theorem State.setRxack_moves (s : State) (a : Bit) : (s.setRxack a).moves = s.moves := rfl
@[simp] theorem State.setRxack_slaveAcks (s : State) (a : Bit) : (s.setRxack a).slaveAcks = s.slaveAcks := rfl
@[simp] theorem State.setRxack_slaveBytes (s : State) (a : Bit) : (s.setRxack a).slaveBytes = s.slaveBytes := rfl
@[simp] theorem State.setRxack_draws (s : State) (a : Bit) : (s.setRxack a).draws = s.draws := rfl

@[simp] theorem State.setBusy_prerlo (s : State) (b : Bool) : (s.setBusy b).inst.prerlo = s.inst.prerlo := rfl
@[simp] theorem State.setBusy_prerhi (s : State) (b : Bool) : (s.setBusy b).inst.prerhi = s.inst.prerhi := rfl
@[simp] theorem State.setBusy_en (s : State) (b : Bool) : (s.setBusy b).inst.en = s.inst.en := rfl
@[simp] theorem State.setBusy_ien (s : State) (b : Bool) : (s.setBusy b).inst.ien = s.inst.ien := rfl
@[simp] theorem State.setBusy_txr (s : State) (b : Bool) : (s.setBusy b).inst.txr = s.inst.txr := rfl
@[simp] theorem State.setBusy_rxr (s : State) (b : Bool) : (s.setBusy b).inst.rxr = s.inst.rxr := rfl
@[simp] theorem State.setBusy_rxack (s : State) (b : Bool) : (s.setBusy b).inst.rxack = s.inst.rxack := rfl
@[simp] theorem State.setBusy_busy (s : State) (b : Bool) : (s.setBusy b).inst.busy = b := rfl
@[simp] theorem State.setBusy_iflag (s : State) (b : Bool) : (s.setBusy b).inst.iflag = s.inst.iflag := rfl
@[simp] theorem State.setBusy_inflight (s : State) (b : Bool) : (s.setBusy b).inst.inflight = s.inst.inflight := rfl
@[simp] theorem State.setBusy_trace (s : State) (b : Bool) : (s.setBusy b).inst.trace = s.inst.trace := rfl
@[simp] theorem State.setBusy_faults (s : State) (b : Bool) : (s.setBusy b).inst.faults = s.inst.faults := rfl
@[simp] theorem State.setBusy_refused (s : State) (b : Bool) : (s.setBusy b).inst.refused = s.inst.refused := rfl
@[simp] theorem State.setBusy_host (s : State) (b : Bool) : (s.setBusy b).host = s.host := rfl
@[simp] theorem State.setBusy_moves (s : State) (b : Bool) : (s.setBusy b).moves = s.moves := rfl
@[simp] theorem State.setBusy_slaveAcks (s : State) (b : Bool) : (s.setBusy b).slaveAcks = s.slaveAcks := rfl
@[simp] theorem State.setBusy_slaveBytes (s : State) (b : Bool) : (s.setBusy b).slaveBytes = s.slaveBytes := rfl
@[simp] theorem State.setBusy_draws (s : State) (b : Bool) : (s.setBusy b).draws = s.draws := rfl

@[simp] theorem State.setIf_prerlo (s : State) (b : Bool) : (s.setIf b).inst.prerlo = s.inst.prerlo := rfl
@[simp] theorem State.setIf_prerhi (s : State) (b : Bool) : (s.setIf b).inst.prerhi = s.inst.prerhi := rfl
@[simp] theorem State.setIf_en (s : State) (b : Bool) : (s.setIf b).inst.en = s.inst.en := rfl
@[simp] theorem State.setIf_ien (s : State) (b : Bool) : (s.setIf b).inst.ien = s.inst.ien := rfl
@[simp] theorem State.setIf_txr (s : State) (b : Bool) : (s.setIf b).inst.txr = s.inst.txr := rfl
@[simp] theorem State.setIf_rxr (s : State) (b : Bool) : (s.setIf b).inst.rxr = s.inst.rxr := rfl
@[simp] theorem State.setIf_rxack (s : State) (b : Bool) : (s.setIf b).inst.rxack = s.inst.rxack := rfl
@[simp] theorem State.setIf_busy (s : State) (b : Bool) : (s.setIf b).inst.busy = s.inst.busy := rfl
@[simp] theorem State.setIf_iflag (s : State) (b : Bool) : (s.setIf b).inst.iflag = b := rfl
@[simp] theorem State.setIf_inflight (s : State) (b : Bool) : (s.setIf b).inst.inflight = s.inst.inflight := rfl
@[simp] theorem State.setIf_trace (s : State) (b : Bool) : (s.setIf b).inst.trace = s.inst.trace := rfl
@[simp] theorem State.setIf_faults (s : State) (b : Bool) : (s.setIf b).inst.faults = s.inst.faults := rfl
@[simp] theorem State.setIf_refused (s : State) (b : Bool) : (s.setIf b).inst.refused = s.inst.refused := rfl
@[simp] theorem State.setIf_host (s : State) (b : Bool) : (s.setIf b).host = s.host := rfl
@[simp] theorem State.setIf_moves (s : State) (b : Bool) : (s.setIf b).moves = s.moves := rfl
@[simp] theorem State.setIf_slaveAcks (s : State) (b : Bool) : (s.setIf b).slaveAcks = s.slaveAcks := rfl
@[simp] theorem State.setIf_slaveBytes (s : State) (b : Bool) : (s.setIf b).slaveBytes = s.slaveBytes := rfl
@[simp] theorem State.setIf_draws (s : State) (b : Bool) : (s.setIf b).draws = s.draws := rfl

@[simp] theorem State.setInflight_prerlo (s : State) (c : Option Cmd) : (s.setInflight c).inst.prerlo = s.inst.prerlo := rfl
@[simp] theorem State.setInflight_prerhi (s : State) (c : Option Cmd) : (s.setInflight c).inst.prerhi = s.inst.prerhi := rfl
@[simp] theorem State.setInflight_en (s : State) (c : Option Cmd) : (s.setInflight c).inst.en = s.inst.en := rfl
@[simp] theorem State.setInflight_ien (s : State) (c : Option Cmd) : (s.setInflight c).inst.ien = s.inst.ien := rfl
@[simp] theorem State.setInflight_txr (s : State) (c : Option Cmd) : (s.setInflight c).inst.txr = s.inst.txr := rfl
@[simp] theorem State.setInflight_rxr (s : State) (c : Option Cmd) : (s.setInflight c).inst.rxr = s.inst.rxr := rfl
@[simp] theorem State.setInflight_rxack (s : State) (c : Option Cmd) : (s.setInflight c).inst.rxack = s.inst.rxack := rfl
@[simp] theorem State.setInflight_busy (s : State) (c : Option Cmd) : (s.setInflight c).inst.busy = s.inst.busy := rfl
@[simp] theorem State.setInflight_iflag (s : State) (c : Option Cmd) : (s.setInflight c).inst.iflag = s.inst.iflag := rfl
@[simp] theorem State.setInflight_inflight (s : State) (c : Option Cmd) : (s.setInflight c).inst.inflight = c := rfl
@[simp] theorem State.setInflight_trace (s : State) (c : Option Cmd) : (s.setInflight c).inst.trace = s.inst.trace := rfl
@[simp] theorem State.setInflight_faults (s : State) (c : Option Cmd) : (s.setInflight c).inst.faults = s.inst.faults := rfl
@[simp] theorem State.setInflight_refused (s : State) (c : Option Cmd) : (s.setInflight c).inst.refused = s.inst.refused := rfl
@[simp] theorem State.setInflight_host (s : State) (c : Option Cmd) : (s.setInflight c).host = s.host := rfl
@[simp] theorem State.setInflight_moves (s : State) (c : Option Cmd) : (s.setInflight c).moves = s.moves := rfl
@[simp] theorem State.setInflight_slaveAcks (s : State) (c : Option Cmd) : (s.setInflight c).slaveAcks = s.slaveAcks := rfl
@[simp] theorem State.setInflight_slaveBytes (s : State) (c : Option Cmd) : (s.setInflight c).slaveBytes = s.slaveBytes := rfl
@[simp] theorem State.setInflight_draws (s : State) (c : Option Cmd) : (s.setInflight c).draws = s.draws := rfl

@[simp] theorem State.emit_prerlo (s : State) (e : BusEvent) : (s.emit e).inst.prerlo = s.inst.prerlo := rfl
@[simp] theorem State.emit_prerhi (s : State) (e : BusEvent) : (s.emit e).inst.prerhi = s.inst.prerhi := rfl
@[simp] theorem State.emit_en (s : State) (e : BusEvent) : (s.emit e).inst.en = s.inst.en := rfl
@[simp] theorem State.emit_ien (s : State) (e : BusEvent) : (s.emit e).inst.ien = s.inst.ien := rfl
@[simp] theorem State.emit_txr (s : State) (e : BusEvent) : (s.emit e).inst.txr = s.inst.txr := rfl
@[simp] theorem State.emit_rxr (s : State) (e : BusEvent) : (s.emit e).inst.rxr = s.inst.rxr := rfl
@[simp] theorem State.emit_rxack (s : State) (e : BusEvent) : (s.emit e).inst.rxack = s.inst.rxack := rfl
@[simp] theorem State.emit_busy (s : State) (e : BusEvent) : (s.emit e).inst.busy = s.inst.busy := rfl
@[simp] theorem State.emit_iflag (s : State) (e : BusEvent) : (s.emit e).inst.iflag = s.inst.iflag := rfl
@[simp] theorem State.emit_inflight (s : State) (e : BusEvent) : (s.emit e).inst.inflight = s.inst.inflight := rfl
@[simp] theorem State.emit_trace (s : State) (e : BusEvent) : (s.emit e).inst.trace = s.inst.trace ++ [e] := rfl
@[simp] theorem State.emit_faults (s : State) (e : BusEvent) : (s.emit e).inst.faults = s.inst.faults := rfl
@[simp] theorem State.emit_refused (s : State) (e : BusEvent) : (s.emit e).inst.refused = s.inst.refused := rfl
@[simp] theorem State.emit_host (s : State) (e : BusEvent) : (s.emit e).host = s.host := rfl
@[simp] theorem State.emit_moves (s : State) (e : BusEvent) : (s.emit e).moves = s.moves := rfl
@[simp] theorem State.emit_slaveAcks (s : State) (e : BusEvent) : (s.emit e).slaveAcks = s.slaveAcks := rfl
@[simp] theorem State.emit_slaveBytes (s : State) (e : BusEvent) : (s.emit e).slaveBytes = s.slaveBytes := rfl
@[simp] theorem State.emit_draws (s : State) (e : BusEvent) : (s.emit e).draws = s.draws := rfl

@[simp] theorem State.raise_prerlo (s : State) (r : FaultReason) : (s.raise r).inst.prerlo = s.inst.prerlo := rfl
@[simp] theorem State.raise_prerhi (s : State) (r : FaultReason) : (s.raise r).inst.prerhi = s.inst.prerhi := rfl
@[simp] theorem State.raise_en (s : State) (r : FaultReason) : (s.raise r).inst.en = s.inst.en := rfl
@[simp] theorem State.raise_ien (s : State) (r : FaultReason) : (s.raise r).inst.ien = s.inst.ien := rfl
@[simp] theorem State.raise_txr (s : State) (r : FaultReason) : (s.raise r).inst.txr = s.inst.txr := rfl
@[simp] theorem State.raise_rxr (s : State) (r : FaultReason) : (s.raise r).inst.rxr = s.inst.rxr := rfl
@[simp] theorem State.raise_rxack (s : State) (r : FaultReason) : (s.raise r).inst.rxack = s.inst.rxack := rfl
@[simp] theorem State.raise_busy (s : State) (r : FaultReason) : (s.raise r).inst.busy = s.inst.busy := rfl
@[simp] theorem State.raise_iflag (s : State) (r : FaultReason) : (s.raise r).inst.iflag = s.inst.iflag := rfl
@[simp] theorem State.raise_inflight (s : State) (r : FaultReason) : (s.raise r).inst.inflight = s.inst.inflight := rfl
@[simp] theorem State.raise_trace (s : State) (r : FaultReason) : (s.raise r).inst.trace = s.inst.trace := rfl
@[simp] theorem State.raise_faults (s : State) (r : FaultReason) : (s.raise r).inst.faults = s.inst.faults ++ [r] := rfl
@[simp] theorem State.raise_refused (s : State) (r : FaultReason) : (s.raise r).inst.refused = s.inst.refused := rfl
@[simp] theorem State.raise_host (s : State) (r : FaultReason) : (s.raise r).host = s.host := rfl
@[simp] theorem State.raise_moves (s : State) (r : FaultReason) : (s.raise r).moves = s.moves := rfl
@[simp] theorem State.raise_slaveAcks (s : State) (r : FaultReason) : (s.raise r).slaveAcks = s.slaveAcks := rfl
@[simp] theorem State.raise_slaveBytes (s : State) (r : FaultReason) : (s.raise r).slaveBytes = s.slaveBytes := rfl
@[simp] theorem State.raise_draws (s : State) (r : FaultReason) : (s.raise r).draws = s.draws := rfl

@[simp] theorem State.refuse_prerlo (s : State) : (s.refuse).inst.prerlo = s.inst.prerlo := rfl
@[simp] theorem State.refuse_prerhi (s : State) : (s.refuse).inst.prerhi = s.inst.prerhi := rfl
@[simp] theorem State.refuse_en (s : State) : (s.refuse).inst.en = s.inst.en := rfl
@[simp] theorem State.refuse_ien (s : State) : (s.refuse).inst.ien = s.inst.ien := rfl
@[simp] theorem State.refuse_txr (s : State) : (s.refuse).inst.txr = s.inst.txr := rfl
@[simp] theorem State.refuse_rxr (s : State) : (s.refuse).inst.rxr = s.inst.rxr := rfl
@[simp] theorem State.refuse_rxack (s : State) : (s.refuse).inst.rxack = s.inst.rxack := rfl
@[simp] theorem State.refuse_busy (s : State) : (s.refuse).inst.busy = s.inst.busy := rfl
@[simp] theorem State.refuse_iflag (s : State) : (s.refuse).inst.iflag = s.inst.iflag := rfl
@[simp] theorem State.refuse_inflight (s : State) : (s.refuse).inst.inflight = s.inst.inflight := rfl
@[simp] theorem State.refuse_trace (s : State) : (s.refuse).inst.trace = s.inst.trace := rfl
@[simp] theorem State.refuse_faults (s : State) : (s.refuse).inst.faults = s.inst.faults := rfl
@[simp] theorem State.refuse_refused (s : State) : (s.refuse).inst.refused = true := rfl
@[simp] theorem State.refuse_host (s : State) : (s.refuse).host = s.host := rfl
@[simp] theorem State.refuse_moves (s : State) : (s.refuse).moves = s.moves := rfl
@[simp] theorem State.refuse_slaveAcks (s : State) : (s.refuse).slaveAcks = s.slaveAcks := rfl
@[simp] theorem State.refuse_slaveBytes (s : State) : (s.refuse).slaveBytes = s.slaveBytes := rfl
@[simp] theorem State.refuse_draws (s : State) : (s.refuse).draws = s.draws := rfl

@[simp] theorem State.bumpDraws_inst (s : State) : (s.bumpDraws).inst = s.inst := rfl
@[simp] theorem State.bumpDraws_host (s : State) : (s.bumpDraws).host = s.host := rfl
@[simp] theorem State.bumpDraws_moves (s : State) : (s.bumpDraws).moves = s.moves := rfl
@[simp] theorem State.bumpDraws_slaveAcks (s : State) : (s.bumpDraws).slaveAcks = s.slaveAcks := rfl
@[simp] theorem State.bumpDraws_slaveBytes (s : State) : (s.bumpDraws).slaveBytes = s.slaveBytes := rfl
@[simp] theorem State.bumpDraws_draws (s : State) : (s.bumpDraws).draws = s.draws + 1 := rfl

@[simp] theorem State.answer_inst (s : State) (b : Byte) : (s.answer b).inst = s.inst := rfl
@[simp] theorem State.answer_program (s : State) (b : Byte) : (s.answer b).host.program = s.host.program := rfl
@[simp] theorem State.answer_pc (s : State) (b : Byte) : (s.answer b).host.pc = s.host.pc := rfl
@[simp] theorem State.answer_vars (s : State) (b : Byte) : (s.answer b).host.vars = s.host.vars := rfl
@[simp] theorem State.answer_buf (s : State) (b : Byte) : (s.answer b).host.buf = s.host.buf := rfl
@[simp] theorem State.answer_current (s : State) (b : Byte) : (s.answer b).host.current = s.host.current := rfl
@[simp] theorem State.answer_calls (s : State) (b : Byte) : (s.answer b).host.calls = s.host.calls := rfl
@[simp] theorem State.answer_results (s : State) (b : Byte) : (s.answer b).host.results = s.host.results := rfl
@[simp] theorem State.answer_readData (s : State) (b : Byte) : (s.answer b).host.readData = s.draw24 ++ b := rfl
@[simp] theorem State.answer_moves (s : State) (b : Byte) : (s.answer b).moves = s.moves := rfl
@[simp] theorem State.answer_slaveAcks (s : State) (b : Byte) : (s.answer b).slaveAcks = s.slaveAcks := rfl
@[simp] theorem State.answer_slaveBytes (s : State) (b : Byte) : (s.answer b).slaveBytes = s.slaveBytes := rfl
@[simp] theorem State.answer_draws (s : State) (b : Byte) : (s.answer b).draws = s.draws + 1 := rfl

@[simp] theorem State.dropAck_inst (s : State) : (s.dropAck).inst = s.inst := rfl
@[simp] theorem State.dropAck_host (s : State) : (s.dropAck).host = s.host := rfl
@[simp] theorem State.dropAck_moves (s : State) : (s.dropAck).moves = s.moves := rfl
@[simp] theorem State.dropAck_slaveAcks (s : State) : (s.dropAck).slaveAcks = s.slaveAcks.tail := rfl
@[simp] theorem State.dropAck_slaveBytes (s : State) : (s.dropAck).slaveBytes = s.slaveBytes := rfl
@[simp] theorem State.dropAck_draws (s : State) : (s.dropAck).draws = s.draws := rfl

@[simp] theorem State.dropByte_inst (s : State) : (s.dropByte).inst = s.inst := rfl
@[simp] theorem State.dropByte_host (s : State) : (s.dropByte).host = s.host := rfl
@[simp] theorem State.dropByte_moves (s : State) : (s.dropByte).moves = s.moves := rfl
@[simp] theorem State.dropByte_slaveAcks (s : State) : (s.dropByte).slaveAcks = s.slaveAcks := rfl
@[simp] theorem State.dropByte_slaveBytes (s : State) : (s.dropByte).slaveBytes = s.slaveBytes.tail := rfl
@[simp] theorem State.dropByte_draws (s : State) : (s.dropByte).draws = s.draws := rfl

@[simp] theorem State.dropMove_inst (s : State) : (s.dropMove).inst = s.inst := rfl
@[simp] theorem State.dropMove_host (s : State) : (s.dropMove).host = s.host := rfl
@[simp] theorem State.dropMove_moves (s : State) : (s.dropMove).moves = s.moves.tail := rfl
@[simp] theorem State.dropMove_slaveAcks (s : State) : (s.dropMove).slaveAcks = s.slaveAcks := rfl
@[simp] theorem State.dropMove_slaveBytes (s : State) : (s.dropMove).slaveBytes = s.slaveBytes := rfl
@[simp] theorem State.dropMove_draws (s : State) : (s.dropMove).draws = s.draws := rfl

@[simp] theorem State.setVar_inst (s : State) (x : Nat) (v : Word) : (s.setVar x v).inst = s.inst := rfl
@[simp] theorem State.setVar_program (s : State) (x : Nat) (v : Word) : (s.setVar x v).host.program = s.host.program := rfl
@[simp] theorem State.setVar_pc (s : State) (x : Nat) (v : Word) : (s.setVar x v).host.pc = s.host.pc := rfl
@[simp] theorem State.setVar_vars (s : State) (x : Nat) (v : Word) : (s.setVar x v).host.vars = insertVar x v s.host.vars := rfl
@[simp] theorem State.setVar_buf (s : State) (x : Nat) (v : Word) : (s.setVar x v).host.buf = s.host.buf := rfl
@[simp] theorem State.setVar_current (s : State) (x : Nat) (v : Word) : (s.setVar x v).host.current = s.host.current := rfl
@[simp] theorem State.setVar_calls (s : State) (x : Nat) (v : Word) : (s.setVar x v).host.calls = s.host.calls := rfl
@[simp] theorem State.setVar_results (s : State) (x : Nat) (v : Word) : (s.setVar x v).host.results = s.host.results := rfl
@[simp] theorem State.setVar_readData (s : State) (x : Nat) (v : Word) : (s.setVar x v).host.readData = s.host.readData := rfl
@[simp] theorem State.setVar_moves (s : State) (x : Nat) (v : Word) : (s.setVar x v).moves = s.moves := rfl
@[simp] theorem State.setVar_slaveAcks (s : State) (x : Nat) (v : Word) : (s.setVar x v).slaveAcks = s.slaveAcks := rfl
@[simp] theorem State.setVar_slaveBytes (s : State) (x : Nat) (v : Word) : (s.setVar x v).slaveBytes = s.slaveBytes := rfl
@[simp] theorem State.setVar_draws (s : State) (x : Nat) (v : Word) : (s.setVar x v).draws = s.draws := rfl

@[simp] theorem State.setPc_inst (s : State) (p : Nat) : (s.setPc p).inst = s.inst := rfl
@[simp] theorem State.setPc_program (s : State) (p : Nat) : (s.setPc p).host.program = s.host.program := rfl
@[simp] theorem State.setPc_pc (s : State) (p : Nat) : (s.setPc p).host.pc = p := rfl
@[simp] theorem State.setPc_vars (s : State) (p : Nat) : (s.setPc p).host.vars = s.host.vars := rfl
@[simp] theorem State.setPc_buf (s : State) (p : Nat) : (s.setPc p).host.buf = s.host.buf := rfl
@[simp] theorem State.setPc_current (s : State) (p : Nat) : (s.setPc p).host.current = s.host.current := rfl
@[simp] theorem State.setPc_calls (s : State) (p : Nat) : (s.setPc p).host.calls = s.host.calls := rfl
@[simp] theorem State.setPc_results (s : State) (p : Nat) : (s.setPc p).host.results = s.host.results := rfl
@[simp] theorem State.setPc_readData (s : State) (p : Nat) : (s.setPc p).host.readData = s.host.readData := rfl
@[simp] theorem State.setPc_moves (s : State) (p : Nat) : (s.setPc p).moves = s.moves := rfl
@[simp] theorem State.setPc_slaveAcks (s : State) (p : Nat) : (s.setPc p).slaveAcks = s.slaveAcks := rfl
@[simp] theorem State.setPc_slaveBytes (s : State) (p : Nat) : (s.setPc p).slaveBytes = s.slaveBytes := rfl
@[simp] theorem State.setPc_draws (s : State) (p : Nat) : (s.setPc p).draws = s.draws := rfl

@[simp] theorem State.setBuf_inst (s : State) (b : List Byte) : (s.setBuf b).inst = s.inst := rfl
@[simp] theorem State.setBuf_program (s : State) (b : List Byte) : (s.setBuf b).host.program = s.host.program := rfl
@[simp] theorem State.setBuf_pc (s : State) (b : List Byte) : (s.setBuf b).host.pc = s.host.pc := rfl
@[simp] theorem State.setBuf_vars (s : State) (b : List Byte) : (s.setBuf b).host.vars = s.host.vars := rfl
@[simp] theorem State.setBuf_buf (s : State) (b : List Byte) : (s.setBuf b).host.buf = b := rfl
@[simp] theorem State.setBuf_current (s : State) (b : List Byte) : (s.setBuf b).host.current = s.host.current := rfl
@[simp] theorem State.setBuf_calls (s : State) (b : List Byte) : (s.setBuf b).host.calls = s.host.calls := rfl
@[simp] theorem State.setBuf_results (s : State) (b : List Byte) : (s.setBuf b).host.results = s.host.results := rfl
@[simp] theorem State.setBuf_readData (s : State) (b : List Byte) : (s.setBuf b).host.readData = s.host.readData := rfl
@[simp] theorem State.setBuf_moves (s : State) (b : List Byte) : (s.setBuf b).moves = s.moves := rfl
@[simp] theorem State.setBuf_slaveAcks (s : State) (b : List Byte) : (s.setBuf b).slaveAcks = s.slaveAcks := rfl
@[simp] theorem State.setBuf_slaveBytes (s : State) (b : List Byte) : (s.setBuf b).slaveBytes = s.slaveBytes := rfl
@[simp] theorem State.setBuf_draws (s : State) (b : List Byte) : (s.setBuf b).draws = s.draws := rfl

@[simp] theorem State.returnWith_inst (s : State) (v : Option Word) : (s.returnWith v).inst = s.inst := rfl
@[simp] theorem State.returnWith_program (s : State) (v : Option Word) : (s.returnWith v).host.program = [] := rfl
@[simp] theorem State.returnWith_pc (s : State) (v : Option Word) : (s.returnWith v).host.pc = 0 := rfl
@[simp] theorem State.returnWith_vars (s : State) (v : Option Word) : (s.returnWith v).host.vars = [] := rfl
@[simp] theorem State.returnWith_buf (s : State) (v : Option Word) : (s.returnWith v).host.buf = [] := rfl
@[simp] theorem State.returnWith_current (s : State) (v : Option Word) : (s.returnWith v).host.current = none := rfl
@[simp] theorem State.returnWith_calls (s : State) (v : Option Word) : (s.returnWith v).host.calls = s.host.calls := rfl
@[simp] theorem State.returnWith_results (s : State) (v : Option Word) : (s.returnWith v).host.results = s.host.results ++ [⟨v, s.host.buf⟩] := rfl
@[simp] theorem State.returnWith_readData (s : State) (v : Option Word) : (s.returnWith v).host.readData = s.host.readData := rfl
@[simp] theorem State.returnWith_moves (s : State) (v : Option Word) : (s.returnWith v).moves = s.moves := rfl
@[simp] theorem State.returnWith_slaveAcks (s : State) (v : Option Word) : (s.returnWith v).slaveAcks = s.slaveAcks := rfl
@[simp] theorem State.returnWith_slaveBytes (s : State) (v : Option Word) : (s.returnWith v).slaveBytes = s.slaveBytes := rfl
@[simp] theorem State.returnWith_draws (s : State) (v : Option Word) : (s.returnWith v).draws = s.draws := rfl

@[simp] theorem State.begin_inst (s : State) (c : Call) (r : List Call) : (s.begin c r).inst = s.inst := rfl
@[simp] theorem State.begin_program (s : State) (c : Call) (r : List Call) : (s.begin c r).host.program = c.program := rfl
@[simp] theorem State.begin_pc (s : State) (c : Call) (r : List Call) : (s.begin c r).host.pc = 0 := rfl
@[simp] theorem State.begin_vars (s : State) (c : Call) (r : List Call) : (s.begin c r).host.vars = [] := rfl
@[simp] theorem State.begin_buf (s : State) (c : Call) (r : List Call) : (s.begin c r).host.buf = c.buffer := rfl
@[simp] theorem State.begin_current (s : State) (c : Call) (r : List Call) : (s.begin c r).host.current = some c := rfl
@[simp] theorem State.begin_calls (s : State) (c : Call) (r : List Call) : (s.begin c r).host.calls = r := rfl
@[simp] theorem State.begin_results (s : State) (c : Call) (r : List Call) : (s.begin c r).host.results = s.host.results := rfl
@[simp] theorem State.begin_readData (s : State) (c : Call) (r : List Call) : (s.begin c r).host.readData = s.host.readData := rfl
@[simp] theorem State.begin_moves (s : State) (c : Call) (r : List Call) : (s.begin c r).moves = s.moves := rfl
@[simp] theorem State.begin_slaveAcks (s : State) (c : Call) (r : List Call) : (s.begin c r).slaveAcks = s.slaveAcks := rfl
@[simp] theorem State.begin_slaveBytes (s : State) (c : Call) (r : List Call) : (s.begin c r).slaveBytes = s.slaveBytes := rfl
@[simp] theorem State.begin_draws (s : State) (c : Call) (r : List Call) : (s.begin c r).draws = s.draws := rfl

@[simp] theorem State.placeAccess_inst (s : State) (n w : Nat) : (s.placeAccess n w).inst = s.inst := rfl
@[simp] theorem State.placeAccess_program (s : State) (n w : Nat) : (s.placeAccess n w).host.program = placeAt s.host.program s.host.pc (tableStmt n w) := rfl
@[simp] theorem State.placeAccess_pc (s : State) (n w : Nat) : (s.placeAccess n w).host.pc = s.host.pc := rfl
@[simp] theorem State.placeAccess_vars (s : State) (n w : Nat) : (s.placeAccess n w).host.vars = s.host.vars := rfl
@[simp] theorem State.placeAccess_buf (s : State) (n w : Nat) : (s.placeAccess n w).host.buf = s.host.buf := rfl
@[simp] theorem State.placeAccess_current (s : State) (n w : Nat) : (s.placeAccess n w).host.current = s.host.current := rfl
@[simp] theorem State.placeAccess_calls (s : State) (n w : Nat) : (s.placeAccess n w).host.calls = s.host.calls := rfl
@[simp] theorem State.placeAccess_results (s : State) (n w : Nat) : (s.placeAccess n w).host.results = s.host.results := rfl
@[simp] theorem State.placeAccess_readData (s : State) (n w : Nat) : (s.placeAccess n w).host.readData = s.host.readData := rfl
@[simp] theorem State.placeAccess_moves (s : State) (n w : Nat) : (s.placeAccess n w).moves = hostNext s := rfl
@[simp] theorem State.placeAccess_slaveAcks (s : State) (n w : Nat) : (s.placeAccess n w).slaveAcks = s.slaveAcks := rfl
@[simp] theorem State.placeAccess_slaveBytes (s : State) (n w : Nat) : (s.placeAccess n w).slaveBytes = s.slaveBytes := rfl
@[simp] theorem State.placeAccess_draws (s : State) (n w : Nat) : (s.placeAccess n w).draws = s.draws := rfl

end Sys2Proof.Machine
end

