-- ==== Sys2Proof/Laws/Ops.lean ====
section
/-! SUPPORT. One lemma per shared operation: everything it can do. Later proofs cite these instead of unfolding the operation. -/

namespace Sys2Proof.Machine

/-! The guard of an access. -/

theorem Inst.live_iff (i : Inst) : i.live = true ↔ i.faults = [] ∧ i.refused = false := by
  simp [Inst.live]

@[simp] theorem Inst.reset_live : Inst.reset.live = true := rfl

theorem State.whileLive_live {s : State} (h : s.inst.live = true) (o : Host.Outcome State Fault Refusal) :
    s.whileLive o = o := by
  simp [State.whileLive, h]

theorem State.whileLive_quiescent {s : State} (h : s.inst.live = false) (o : Host.Outcome State Fault Refusal) :
    s.whileLive o = .fault s.inst.quiescence := by
  simp [State.whileLive, h]

theorem State.whileLive_next {s t : State} {o : Host.Outcome State Fault Refusal} :
    s.whileLive o = .next t ↔ s.inst.live = true ∧ o = .next t := by
  unfold State.whileLive
  split <;> simp_all

theorem State.access_live {s : State} (h : s.inst.live = true) (t : State) : s.access t = .next t :=
  State.whileLive_live h _

theorem State.access_next {s t u : State} : s.access t = .next u ↔ s.inst.live = true ∧ u = t := by
  rw [State.access, State.whileLive_next, Host.Outcome.next.injEq, eq_comm (a := t)]

/-! Register operations. -/

theorem State.readHeld_cases (s : State) (r : UnwrittenReg) (held : Option Byte) :
    (held = none ∧ s.readHeld r held = s.raise (.unwrittenRead r)) ∨
      ∃ b, held = some b ∧ s.readHeld r held = s.answer b := by
  cases held with
  | none => exact .inl ⟨rfl, rfl⟩
  | some b => exact .inr ⟨b, rfl, rfl⟩

/-- A command in the order R119 checks it: no fault exactly when every check passes. -/
theorem Inst.commandFault_none {i : Inst} {c : Cmd} :
    i.commandFault c = none ↔
      i.en = true ∧ i.inflight = none ∧ ((c.rd = true ∨ c.wr = true) → c.sta = true ∨ i.busy = true) ∧
        (c.wr = true → i.txr.isSome = true) := by
  obtain ⟨sta, sto, rd, wr, ack⟩ := c
  unfold Inst.commandFault
  cases i.en <;> cases hf : i.inflight <;> cases i.busy <;> cases ht : i.txr <;> cases sta <;> cases rd <;> cases wr <;> simp

theorem State.writeCommand_cases (s : State) (c : Cmd) (iack : Bool) :
    (∃ r, s.inst.commandFault c = some r ∧ s.writeCommand c iack = s.raise r) ∨
      (s.inst.commandFault c = none ∧ s.writeCommand c iack = (s.acknowledge iack).issue c) := by
  unfold State.writeCommand
  cases h : s.inst.commandFault c with
  | some r => exact .inl ⟨r, rfl, rfl⟩
  | none => exact .inr ⟨rfl, rfl⟩

@[simp] theorem State.acknowledge_false (s : State) : s.acknowledge false = s := rfl

@[simp] theorem State.acknowledge_true (s : State) : s.acknowledge true = s.setIf false := rfl

theorem State.acknowledge_iflag (s : State) (k : Bool) : (s.acknowledge k).inst.iflag = (s.inst.iflag && !k) := by
  cases k <;> simp

theorem State.issue_starts {c : Cmd} (s : State) (h : c.starts = true) : s.issue c = s.setInflight (some c) := by
  simp [State.issue, h]

theorem State.issue_empty (s : State) : s.issue emptyCommand = s := rfl

/-- What a CR write changes: the IF flag and the command in flight, and nothing else (R119). -/
theorem State.issue_acknowledge (s : State) (c : Cmd) (k : Bool) :
    (s.acknowledge k).issue c =
      { s with
        inst :=
          { s.inst with
            iflag := s.inst.iflag && !k
            inflight := if c.starts then some c else s.inst.inflight } } := by
  unfold State.issue
  cases k <;> cases c.starts <;> simp [State.setIf, State.setInflight]

/-- The meaning of every command form is the one CR write of its command (R119). -/
theorem exec_command {i : Instr} {c : Cmd} {k : Bool} (h : i.command = some (c, k)) (s : State) :
    exec i s = s.access (s.writeCommand c k) := by
  cases i <;> simp_all [Instr.command] <;> obtain ⟨rfl, rfl⟩ := h <;> rfl

/-! Completion. -/

theorem State.startIf_txr (s : State) (c : Cmd) : (s.startIf c).inst.txr = s.inst.txr := by
  unfold State.startIf State.phaseStart
  split <;> simp

theorem State.complete_next {s t : State} {c : Cmd} :
    s.complete c = .next t ↔ ∃ u, (s.startIf c).writeIf c = some u ∧ t = ((u.readIf c).stopIf c).finish := by
  unfold State.complete
  cases (s.startIf c).writeIf c with
  | none => simp
  | some u => simp [eq_comm]

theorem completionStep_inflight {s : State} {c : Cmd} (h : s.inst.live = true) (hc : s.inst.inflight = some c) :
    completionStep s = s.complete c := by
  simp [completionStep, State.whileLive_live h, hc]

/-! Host variables. -/

theorem lookupVar_insertVar (x y : Nat) (v : Word) (vars : List (Nat × Word)) (h : vars.Pairwise fun a b => a.1 < b.1) :
    lookupVar x (insertVar y v vars) = if x = y then some v else lookupVar x vars := by
  induction vars with
  | nil => simp [insertVar, lookupVar, eq_comm]
  | cons p rest ih =>
    obtain ⟨z, w⟩ := p
    rw [List.pairwise_cons] at h
    unfold insertVar
    by_cases hyz : y < z
    · simp only [hyz, if_true, lookupVar]
      by_cases hxy : x = y
      · simp [hxy]
      · simp [hxy, Ne.symm hxy]
    · by_cases hye : y = z
      · subst hye
        simp only [lt_irrefl, if_false, if_true, lookupVar]
        by_cases hxy : x = y
        · simp [hxy]
        · simp [hxy, Ne.symm hxy]
      · simp only [hyz, hye, if_false, lookupVar]
        by_cases hxy : x = y
        · subst hxy
          simp [ih h.2, Ne.symm hye]
        · simp [ih h.2, hxy]

theorem insertVar_bound {x y : Nat} {v : Word} {vars : List (Nat × Word)} (hxy : x < y)
    (h : ∀ p ∈ vars, x < p.1) : ∀ p ∈ insertVar y v vars, x < p.1 := by
  induction vars with
  | nil => simpa [insertVar] using hxy
  | cons q rest ih =>
    obtain ⟨z, w⟩ := q
    have hz : x < z := h (z, w) (by simp)
    have hrest : ∀ p ∈ rest, x < p.1 := fun p hp => h p (by simp [hp])
    unfold insertVar
    split
    · intro p hp
      simp only [List.mem_cons] at hp
      rcases hp with rfl | rfl | hp
      exacts [hxy, hz, hrest p hp]
    · split
      · intro p hp
        simp only [List.mem_cons] at hp
        rcases hp with rfl | hp
        exacts [hxy, hrest p hp]
      · intro p hp
        simp only [List.mem_cons] at hp
        rcases hp with rfl | hp
        exacts [hz, ih hrest p hp]

/-- Assigning a variable keeps the list's form: rising numbers, each once. -/
theorem insertVar_ordered (x : Nat) (v : Word) {vars : List (Nat × Word)} (h : vars.Pairwise fun a b => a.1 < b.1) :
    (insertVar x v vars).Pairwise fun a b => a.1 < b.1 := by
  induction vars with
  | nil => simp [insertVar]
  | cons q rest ih =>
    obtain ⟨z, w⟩ := q
    rw [List.pairwise_cons] at h
    unfold insertVar
    split
    · rename_i hxz
      refine List.pairwise_cons.2 ⟨?_, List.pairwise_cons.2 h⟩
      intro p hp
      simp only [List.mem_cons] at hp
      rcases hp with rfl | hp
      exacts [hxz, lt_trans hxz (h.1 p hp)]
    · split
      · rename_i _ hxz
        subst hxz
        exact List.pairwise_cons.2 ⟨fun p hp => h.1 p hp, h.2⟩
      · rename_i h1 h2
        exact List.pairwise_cons.2 ⟨insertVar_bound (by omega) h.1, ih h.2⟩

end Sys2Proof.Machine
end

