-- ==== Sys2Proof/Laws/PerInstr.lean ====
section
/-! SUPPORT. The per-instruction family AccessFields: the access word of every instruction carries its W bit, its offset and its data byte in
the fields of R80. -/

namespace Sys2Proof

/-- The bits of an access word: the data byte, the offset above it, W on top (R80). -/
theorem accessWord_getLsbD (w : Bool) (k : Nat) (d : Byte) (i : Nat) :
    (accessWord w k d).getLsbD i =
      if i < 8 then d.getLsbD i else if i < 11 then (BitVec.ofNat 3 k).getLsbD (i - 8) else (BitVec.ofBool w).getLsbD (i - 11) := by
  unfold accessWord
  rw [BitVec.getLsbD_append, BitVec.getLsbD_append]
  by_cases h8 : i < 8
  · simp [h8, show i < 11 by omega]
  · by_cases h11 : i < 11
    · simp [h8, h11]
    · simp [h8, h11]

theorem accessWord_isWrite (w : Bool) (k : Nat) (d : Byte) : AccessWord.isWrite (accessWord w k d) = w := by
  unfold AccessWord.isWrite
  rw [accessWord_getLsbD]
  simp

theorem accessWord_offset (w : Bool) {k : Nat} (hk : k < 8) (d : Byte) : AccessWord.offset (accessWord w k d) = k := by
  have h : (accessWord w k d).extractLsb' 8 3 = BitVec.ofNat 3 k := by
    apply BitVec.eq_of_getLsbD_eq
    intro i hi
    simp [accessWord_getLsbD, hi, show 8 + i < 11 by omega]
  unfold AccessWord.offset
  rw [h, BitVec.toNat_ofNat]
  omega

theorem accessWord_data (w : Bool) (k : Nat) (d : Byte) : AccessWord.data (accessWord w k d) = d := by
  unfold AccessWord.data
  apply BitVec.eq_of_getLsbD_eq
  intro i hi
  simp [accessWord_getLsbD, hi]

theorem Instr.offset_lt (i : Instr) : i.offset < 8 := by
  cases i <;> simp [Instr.offset]

namespace Laws.AccessFields

/-- The fields of R80 in the access word of `i`. -/
def Statement (i : Instr) : Prop :=
  AccessWord.isWrite (encode i) = i.isWrite ∧ AccessWord.offset (encode i) = i.offset ∧ AccessWord.data (encode i) = i.dataByte

theorem all (i : Instr) : Statement i :=
  ⟨accessWord_isWrite _ _ _, accessWord_offset _ i.offset_lt _, accessWord_data _ _ _⟩

theorem rdPrerlo : Statement .rdPrerlo := all _
theorem wrPrerlo (d : Byte) : Statement (.wrPrerlo d) := all _
theorem rdPrerhi : Statement .rdPrerhi := all _
theorem wrPrerhi (d : Byte) : Statement (.wrPrerhi d) := all _
theorem rdCtr : Statement .rdCtr := all _
theorem wrCtr (d : Byte) : Statement (.wrCtr d) := all _
theorem rdRxr : Statement .rdRxr := all _
theorem wrTxr (d : Byte) : Statement (.wrTxr d) := all _
theorem rdSr : Statement .rdSr := all _
theorem crNop : Statement .crNop := all _
theorem crIack : Statement .crIack := all _
theorem crSto (iack : Bool) : Statement (.crSto iack) := all _
theorem crWr (iack : Bool) : Statement (.crWr iack) := all _
theorem crWrSto (iack : Bool) : Statement (.crWrSto iack) := all _
theorem crStaWr (iack : Bool) : Statement (.crStaWr iack) := all _
theorem crStaWrSto (iack : Bool) : Statement (.crStaWrSto iack) := all _
theorem crRd (iack : Bool) : Statement (.crRd iack) := all _
theorem crRdAck (iack : Bool) : Statement (.crRdAck iack) := all _
theorem crRdSto (iack : Bool) : Statement (.crRdSto iack) := all _
theorem crRdAckSto (iack : Bool) : Statement (.crRdAckSto iack) := all _

end Laws.AccessFields

end Sys2Proof
end

