-- ==== Sys2Proof/Laws/Step.lean ====
section
/-! SUPPORT. What one access and one step can do, said once: if it answers a next state, one of these cases holds. -/

namespace Sys2Proof.Machine

/-- Every admitted command byte carries an admitted command (R88). -/
theorem command_admitted {i : Instr} {c : Cmd} {k : Bool} (h : i.command = some (c, k)) : c.admitted = true := by
  cases i <;> simp_all [Instr.command] <;> obtain ⟨rfl, -⟩ := h <;> rfl

/-- Every meaning answers a next state in a live run (R67, R220, R222). -/
theorem exec_live (i : Instr) {s : State} (h : s.inst.live = true) : ∃ t, exec i s = .next t := by
  cases i <;> exact ⟨_, State.access_live h _⟩

/-- A meaning stops exactly where the run is not live (R222). -/
theorem exec_quiescent (i : Instr) {s : State} (h : s.inst.live = false) : exec i s = .fault s.inst.quiescence := by
  cases i <;> exact State.whileLive_quiescent h _

/-- What a meaning can do (R110 to R131): record a fault, refuse, answer a read, or make the one write of its register. -/
theorem exec_cases {i : Instr} {s t : State} (h : exec i s = .next t) :
    s.inst.live = true ∧
      ((∃ r, t = s.raise r) ∨ (∃ d, i = .wrCtr d ∧ ctrReserved d = true ∧ t = s.refuse) ∨
        (i.isWrite = false ∧ ∃ b, t = s.answer b) ∨
        (∃ d, i = .wrPrerlo d ∧ s.inst.en = false ∧ t = s.setPrerlo d) ∨
        (∃ d, i = .wrPrerhi d ∧ s.inst.en = false ∧ t = s.setPrerhi d) ∨
        (∃ d, i = .wrCtr d ∧ (s.inst.en && !ctrEnOf d && s.inst.active) = false ∧ t = s.setCtr (ctrEnOf d) (ctrIenOf d)) ∨
        (∃ d, i = .wrTxr d ∧ s.inst.writing = false ∧ t = s.setTxr d) ∨
        ∃ c k, i.command = some (c, k) ∧ s.inst.commandFault c = none ∧ t = (s.acknowledge k).issue c) := by
  cases hi : i.command with
  | some p =>
    obtain ⟨c, k⟩ := p
    rw [exec_command hi, State.access_next] at h
    obtain ⟨hl, rfl⟩ := h
    refine ⟨hl, ?_⟩
    rcases State.writeCommand_cases s c k with ⟨r, -, e⟩ | ⟨hn, e⟩
    · exact .inl ⟨r, e⟩
    · exact .inr (.inr (.inr (.inr (.inr (.inr (.inr ⟨c, k, rfl, hn, e⟩))))))
  | none =>
    cases i <;> simp only [Instr.command, reduceCtorEq] at hi
    case rdPrerlo =>
      obtain ⟨hl, rfl⟩ := State.access_next.1 h
      rcases State.readHeld_cases s .prerlo s.inst.prerlo with ⟨-, e⟩ | ⟨b, -, e⟩
      · exact ⟨hl, .inl ⟨_, e⟩⟩
      · exact ⟨hl, .inr (.inr (.inl ⟨rfl, b, e⟩))⟩
    case rdPrerhi =>
      obtain ⟨hl, rfl⟩ := State.access_next.1 h
      rcases State.readHeld_cases s .prerhi s.inst.prerhi with ⟨-, e⟩ | ⟨b, -, e⟩
      · exact ⟨hl, .inl ⟨_, e⟩⟩
      · exact ⟨hl, .inr (.inr (.inl ⟨rfl, b, e⟩))⟩
    case rdRxr =>
      obtain ⟨hl, rfl⟩ := State.access_next.1 h
      rcases State.readHeld_cases s .rxr s.rxrRead with ⟨-, e⟩ | ⟨b, -, e⟩
      · exact ⟨hl, .inl ⟨_, e⟩⟩
      · exact ⟨hl, .inr (.inr (.inl ⟨rfl, b, e⟩))⟩
    case rdCtr =>
      obtain ⟨hl, rfl⟩ := State.access_next.1 h
      exact ⟨hl, .inr (.inr (.inl ⟨rfl, _, rfl⟩))⟩
    case rdSr =>
      obtain ⟨hl, rfl⟩ := State.access_next.1 h
      exact ⟨hl, .inr (.inr (.inl ⟨rfl, _, rfl⟩))⟩
    case wrPrerlo d =>
      obtain ⟨hl, rfl⟩ := State.access_next.1 h
      cases he : s.inst.en <;> simp_all
    case wrPrerhi d =>
      obtain ⟨hl, rfl⟩ := State.access_next.1 h
      cases he : s.inst.en <;> simp_all
    case wrTxr d =>
      obtain ⟨hl, rfl⟩ := State.access_next.1 h
      cases he : s.inst.writing <;> simp_all
    case wrCtr d =>
      obtain ⟨hl, rfl⟩ := State.access_next.1 h
      refine ⟨hl, ?_⟩
      cases hr : ctrReserved d with
      | true => exact .inr (.inl ⟨d, rfl, hr, by simp⟩)
      | false =>
        cases ha : (s.inst.en && !ctrEnOf d && s.inst.active) with
        | true => exact .inl ⟨.disableWhileActive, by simp⟩
        | false => exact .inr (.inr (.inr (.inr (.inr (.inl ⟨d, rfl, ha, by simp⟩)))))

/-- No access moves the host's program, pc, variables, buffer, calls or results, or uses an input from outside. -/
theorem exec_host {i : Instr} {s t : State} (h : exec i s = .next t) :
    t.host = { s.host with readData := t.host.readData } ∧ t.moves = s.moves ∧ t.slaveAcks = s.slaveAcks ∧
      t.slaveBytes = s.slaveBytes := by
  rcases (exec_cases h).2 with ⟨r, rfl⟩ | ⟨d, -, -, rfl⟩ | ⟨-, b, rfl⟩ | ⟨d, -, -, rfl⟩ | ⟨d, -, -, rfl⟩ | ⟨d, -, -, rfl⟩ |
    ⟨d, -, -, rfl⟩ | ⟨c, k, -, -, rfl⟩
  case inr.inr.inr.inr.inr.inr.inr => rw [State.issue_acknowledge]; exact ⟨rfl, rfl, rfl, rfl⟩
  all_goals exact ⟨rfl, rfl, rfl, rfl⟩

@[simp] theorem State.deliver_inst (s : State) (dest : Option Nat) : (s.deliver dest).inst = s.inst := by
  cases dest <;> rfl

@[simp] theorem State.advance_inst (s : State) : s.advance.inst = s.inst := rfl

@[simp] theorem State.afterAccess_inst (s : State) (dest : Option Nat) : (s.afterAccess dest).inst = s.inst := by
  unfold State.afterAccess
  split <;> simp

theorem runAccess_cases {w : AccessWord} {dest : Option Nat} {s t : State} (h : runAccess w dest s = .next t) :
    t = s.refuse ∨ ∃ i v, decode w = .ok i ∧ exec i s = .next v ∧ t = v.afterAccess dest := by
  unfold runAccess at h
  split at h
  · cases h; exact .inl rfl
  · rename_i i hd
    split at h
    · rename_i v hv
      cases h; exact .inr ⟨i, v, hd, hv, rfl⟩
    · cases h
    · cases h

theorem runBusAccess_cases {a : Nat} {z : AccessSize} {word : Nat → AccessWord} {dest : Option Nat} {s t : State}
    (h : runBusAccess a z word dest s = .next t) :
    t = s.refuse ∨ ∃ k, busTarget a z = .register k ∧ runAccess (word k) dest s = .next t := by
  unfold runBusAccess at h
  split at h
  · rename_i k hk
    exact .inr ⟨k, hk, h⟩
  · cases h; exact .inl rfl
  · cases h

theorem State.withValue_cases {α : Type} {s t : State} {v : Option α} {k : α → Host.Outcome State Fault Refusal}
    (h : s.withValue v k = .next t) : t = s.refuse ∨ ∃ x, v = some x ∧ k x = .next t := by
  unfold State.withValue at h
  split at h
  · rename_i x
    exact .inr ⟨x, rfl, h⟩
  · cases h; exact .inl rfl

/-- What a host statement does to the controller: nothing, the refusal mark, or the one access it performs. -/
theorem hostStmt_inst {st : Stmt} {s t : State} (h : hostStmt st s = .next t) :
    t.inst = s.inst ∨ t.inst = s.refuse.inst ∨
      ∃ w i v, s.Performs st w ∧ decode w = .ok i ∧ exec i s = .next v ∧ t.inst = v.inst := by
  have acc : ∀ {w dest}, s.Performs st w → runAccess w dest s = .next t →
      t.inst = s.inst ∨ t.inst = s.refuse.inst ∨
        ∃ w i v, s.Performs st w ∧ decode w = .ok i ∧ exec i s = .next v ∧ t.inst = v.inst := by
    intro w dest hp hr
    rcases runAccess_cases hr with rfl | ⟨i, v, hd, hv, rfl⟩
    · exact .inr (.inl rfl)
    · exact .inr (.inr ⟨w, i, v, hp, hd, hv, by simp⟩)
  cases st with
  | access w => exact acc rfl h
  | read r x => exact acc rfl h
  | memRead a z x =>
    rcases runBusAccess_cases h with rfl | ⟨k, hk, hr⟩
    · exact .inr (.inl rfl)
    · exact acc ⟨k, hk, rfl⟩ hr
  | write r e =>
    rcases State.withValue_cases h with rfl | ⟨v, he, hv⟩
    · exact .inr (.inl rfl)
    · exact acc ⟨v, he, rfl⟩ hv
  | memWrite a z e =>
    rcases State.withValue_cases h with rfl | ⟨v, he, hv⟩
    · exact .inr (.inl rfl)
    · rcases runBusAccess_cases hv with rfl | ⟨k, hk, hr⟩
      · exact .inr (.inl rfl)
      · exact acc ⟨k, v, hk, he, rfl⟩ hr
  | assign x e =>
    rcases State.withValue_cases h with rfl | ⟨v, -, hv⟩
    · exact .inr (.inl rfl)
    · cases hv; exact .inl rfl
  | store k e =>
    rcases State.withValue_cases h with rfl | ⟨j, -, hj⟩
    · exact .inr (.inl rfl)
    · rcases State.withValue_cases hj with rfl | ⟨v, -, hv⟩
      · exact .inr (.inl rfl)
      · cases hv
        unfold State.storeByte
        split
        · exact .inl rfl
        · exact .inr (.inl rfl)
  | goto l => cases h; exact .inl rfl
  | ifGoto c l =>
    rcases State.withValue_cases h with rfl | ⟨b, -, hb⟩
    · exact .inr (.inl rfl)
    · cases hb
      cases b <;> exact .inl rfl
  | ret e =>
    cases e with
    | none => cases h; exact .inl rfl
    | some e =>
      rcases State.withValue_cases h with rfl | ⟨v, -, hv⟩
      · exact .inr (.inl rfl)
      · cases hv; exact .inl rfl
  | refuse => cases h; exact .inr (.inl rfl)

/-- A statement that performs an access runs that access, with the variable it reads into, if any. -/
theorem hostStmt_performs {st : Stmt} {s : State} {w : AccessWord} (h : s.Performs st w) :
    ∃ dest, hostStmt st s = runAccess w dest s := by
  cases st with
  | access u => cases h; exact ⟨none, rfl⟩
  | read r x => cases h; exact ⟨some x, rfl⟩
  | write r e =>
    obtain ⟨v, he, rfl⟩ := h
    exact ⟨none, by simp [hostStmt, State.withValue, he]⟩
  | memRead a z x =>
    obtain ⟨k, hk, rfl⟩ := h
    exact ⟨some x, by simp [hostStmt, runBusAccess, hk]⟩
  | memWrite a z e =>
    obtain ⟨k, v, hk, he, rfl⟩ := h
    exact ⟨none, by simp [hostStmt, State.withValue, he, runBusAccess, hk]⟩
  | assign _ _ | store _ _ | goto _ | ifGoto _ _ | ret _ | refuse => exact h.elim

theorem hostStep_cases {s t : State} (h : hostStep s = .next t) :
    (∃ st, s.fetch = some st ∧ hostStmt st s = .next t) ∨ (s.fetch = none ∧ ∃ c rest, s.host.calls = c :: rest ∧ t = s.begin c rest) ∨
      (s.fetch = none ∧ s.host.calls = [] ∧ t = s) := by
  unfold hostStep at h
  split at h
  · rename_i st hst
    exact .inl ⟨st, hst, h⟩
  · rename_i hf
    split at h
    · rename_i c rest hc
      cases h; exact .inr (.inl ⟨hf, c, rest, hc, rfl⟩)
    · rename_i hc
      cases h; exact .inr (.inr ⟨hf, hc, rfl⟩)

@[simp] theorem State.chooseMove_inst (s : State) : s.chooseMove.2.inst = s.inst := by
  unfold State.chooseMove
  split
  · rfl
  · split <;> rfl

@[simp] theorem State.chooseMove_host (s : State) : s.chooseMove.2.host = s.host := by
  unfold State.chooseMove
  split
  · rfl
  · split <;> rfl

/-- What a step can do: the run is live, and the controller is left alone, marked refused, accessed by the host, or completes its command. -/
theorem step_cases {s t : State} (h : step s = .next t) :
    s.inst.live = true ∧
      (t.inst = s.inst ∨ t.inst = s.refuse.inst ∨
        (s.chooseMove.1 = .host ∧
          ∃ w i v, s.chooseMove.2.NextAccess w ∧ decode w = .ok i ∧ exec i s.chooseMove.2 = .next v ∧ t.inst = v.inst) ∨
        (s.chooseMove.1 = .controller ∧ ∃ c, s.inst.inflight = some c ∧ s.chooseMove.2.complete c = .next t)) := by
  obtain ⟨hl, hm⟩ := State.whileLive_next.1 (show s.whileLive (runMove s.chooseMove.1 s.chooseMove.2) = .next t from h)
  refine ⟨hl, ?_⟩
  cases hmv : s.chooseMove.1 with
  | host =>
    rw [hmv] at hm
    rcases hostStep_cases hm with ⟨st, hf, hs⟩ | ⟨-, c, rest, -, rfl⟩ | ⟨-, -, rfl⟩
    · rcases hostStmt_inst hs with e | e | ⟨w, i, v, hp, hd, hv, e⟩
      · exact .inl (by simpa using e)
      · exact .inr (.inl (by simpa [State.refuse] using e))
      · exact .inr (.inr (.inl ⟨rfl, w, i, v, ⟨st, hf, hp⟩, hd, hv, e⟩))
    · exact .inl (by simp)
    · exact .inl (by simp)
  | controller =>
    rw [hmv] at hm
    change completionStep s.chooseMove.2 = .next t at hm
    obtain ⟨-, hc⟩ := State.whileLive_next.1 hm
    split at hc
    · rename_i c hcf
      exact .inr (.inr (.inr ⟨rfl, c, by simpa using hcf, hc⟩))
    · cases hc; exact .inl (by simp)
  | otherHost =>
    rw [hmv] at hm
    cases hm; exact .inr (.inl (by simp [State.refuse]))
  | midRunReset =>
    rw [hmv] at hm
    cases hm; exact .inr (.inl (by simp [State.refuse]))

end Sys2Proof.Machine
end

