-- ==== Sys2Proof/Tests/Slice0.lean ====
section
/-! SUPPORT. Tests: expected results are from the vectors of spec/95_test_vectors.md (cited by their ids) or from the rules named; and, for each
statement with hypotheses, a witness that meets them together. -/

namespace Sys2Proof.Tests

open Sys2Proof Sys2Proof.Machine

/-! Small states. `i0` and `i1` are the vectors' S0 and S1. -/

def i0 : Inst := Inst.reset

def i1 : Inst := { Inst.reset with prerlo := some 0x60, prerhi := some 0x00, en := true }

def cSto : Cmd := { sta := false, sto := true, rd := false, wr := false, ack := false }
def cWr : Cmd := { sta := false, sto := false, rd := false, wr := true, ack := false }
def cWrSto : Cmd := { sta := false, sto := true, rd := false, wr := true, ack := false }
def cStaWr : Cmd := { sta := true, sto := false, rd := false, wr := true, ack := false }
def cStaWrSto : Cmd := { sta := true, sto := true, rd := false, wr := true, ack := false }
def cRd : Cmd := { sta := false, sto := false, rd := true, wr := false, ack := false }
def cRdAck : Cmd := { sta := false, sto := false, rd := true, wr := false, ack := true }
def cRdSto : Cmd := { sta := false, sto := true, rd := true, wr := false, ack := false }
def cRdAckSto : Cmd := { sta := false, sto := true, rd := true, wr := false, ack := true }

/-- A machine with the controller `i` and nothing placed. -/
def st (i : Inst) : State := { State.reset with inst := i }

/-- A machine whose host runs `p` from its start and moves in the next `n` steps. -/
def running (i : Inst) (p : List Stmt) (n : Nat) : State :=
  { State.reset with inst := i, moves := List.replicate n .host, host := { HostAgent.reset with program := p } }

/-- A machine whose host is to make the call `c` and moves in the next `n` steps. -/
def calling (i : Inst) (c : Call) (n : Nat) : State :=
  { State.reset with inst := i, moves := List.replicate n .host, host := { HostAgent.reset with calls := [c] } }

/-- The controller after an outcome. -/
def instOf (o : Host.Outcome State Fault Refusal) : Option Inst :=
  match o with
  | .next t => some t.inst
  | .fault _ => none
  | .refused _ => none

/-- The controller after one access. -/
def acc (i : Instr) (s : Inst) : Option Inst := instOf (exec i (st s))

/-- The controller after the command `c` in flight completes, with the slaves' answers given. -/
def done (i : Inst) (c : Cmd) (acks : List Bit) (bytes : List Byte) : Option Inst :=
  instOf (completionStep { State.reset with inst := { i with inflight := some c }, slaveAcks := acks, slaveBytes := bytes })

/-! WellFormed: the one check refuses an ill-formed term (R91, R115). -/

theorem test_wellformed_refuses_reserved_control_bits :
    Instr.wellFormed (.wrCtr 0x81) = false ∧ Instr.wellFormed (.wrCtr 0xA0) = false ∧ Instr.wellFormed (.wrCtr 0xC0) = true := by
  decide

/-! Decoding: words written out from R87 and the table of 95_test_vectors.md section 2.1. -/

theorem test_decode_prescale :
    decode 0b000000000000#12 = .ok .rdPrerlo ∧ decode 0b100010101011#12 = .ok (.wrPrerlo 0xAB) ∧
      decode 0b000100000000#12 = .ok .rdPrerhi ∧ decode 0b100111111111#12 = .ok (.wrPrerhi 0xFF) := by decide

theorem test_decode_control :
    decode 0b001000000000#12 = .ok .rdCtr ∧ decode 0b101001000000#12 = .ok (.wrCtr 0x40) ∧
      decode 0b101010000000#12 = .ok (.wrCtr 0x80) := by decide

theorem test_decode_data :
    decode 0b001100000000#12 = .ok .rdRxr ∧ decode 0b101110100001#12 = .ok (.wrTxr 0xA1) ∧
      decode 0b101111111111#12 = .ok (.wrTxr 0xFF) := by decide

theorem test_decode_status : decode 0b010000000000#12 = .ok .rdSr := by decide

theorem test_decode_commands :
    decode 0b110000000000#12 = .ok .crNop ∧ decode 0b110000000001#12 = .ok .crIack ∧
      decode 0b110001000001#12 = .ok (.crSto true) ∧ decode 0b110000010000#12 = .ok (.crWr false) ∧
      decode 0b110001010001#12 = .ok (.crWrSto true) ∧ decode 0b110010010000#12 = .ok (.crStaWr false) ∧
      decode 0b110011010001#12 = .ok (.crStaWrSto true) := by decide

theorem test_decode_read_commands :
    decode 0b110000100000#12 = .ok (.crRd false) ∧ decode 0b110000101001#12 = .ok (.crRdAck true) ∧
      decode 0b110001100001#12 = .ok (.crRdSto true) ∧ decode 0b110001101000#12 = .ok (.crRdAckSto false) := by decide

theorem test_decode_refused :
    decode 0x001#12 = .error .readWithData ∧ decode 0x500#12 = .error .noRegister ∧ decode 0xF00#12 = .error .noRegister ∧
      decode 0xA81#12 = .error .ctrReservedBits ∧ decode 0xA60#12 = .error .ctrReservedBits := by decide

theorem test_decode_refused_commands :
    decode 0xC02#12 = .error .crReservedBits ∧ decode 0xC04#12 = .error .crReservedBits ∧ decode 0xC30#12 = .error .readAndWrite ∧
      decode 0xC80#12 = .error .startAlone ∧ decode 0xCC0#12 = .error .startAlone ∧ decode 0xCA0#12 = .error .startWithRead ∧
      decode 0xCE8#12 = .error .startWithRead ∧ decode 0xC08#12 = .error .ackWithoutRead ∧ decode 0xC18#12 = .error .ackWithoutRead ∧
      decode 0xC48#12 = .error .ackWithoutRead := by decide

theorem test_decode_table_word :
    decodeTableWord 12 0xC68 = some (.crRdAckSto false) ∧ decodeTableWord 12 0xC30 = none ∧ decodeTableWord 16 0xA80 = some (.wrCtr 0x80) ∧
      decodeTableWord 16 0x1A80 = none := by decide

theorem test_encode :
    encode (.wrPrerlo 0xC8) = 0x8C8#12 ∧ encode (.wrCtr 0xC0) = 0xAC0#12 ∧ encode (.crStaWr true) = 0xC91#12 ∧
      encode (.crRdAckSto false) = 0xC68#12 ∧ encode .rdSr = 0x400#12 := by decide

/-! Register accesses (95_test_vectors.md section 2.2). -/

theorem test_a1_prerlo_unwritten : acc .rdPrerlo i0 = some { i0 with faults := [.unwrittenRead .prerlo] } := by decide
theorem test_a2_prerlo_read : exec .rdPrerlo (st i1) = .next ((st i1).answer 0x60) := rfl
theorem test_a3_wr_prerlo : acc (.wrPrerlo 0xC8) i0 = some { i0 with prerlo := some 0xC8 } := by decide
theorem test_a4_wr_prerlo_enabled : acc (.wrPrerlo 0xC8) i1 = some { i1 with faults := [.prescaleWhileEnabled] } := by decide
theorem test_a5_prerhi_unwritten : acc .rdPrerhi i0 = some { i0 with faults := [.unwrittenRead .prerhi] } := by decide
theorem test_a6_prerhi_read :
    exec .rdPrerhi (st { i0 with prerhi := some 0x07 }) = .next ((st { i0 with prerhi := some 0x07 }).answer 0x07) := rfl
theorem test_a6_wr_prerhi : acc (.wrPrerhi 0x07) i0 = some { i0 with prerhi := some 0x07 } := by decide
theorem test_a7_wr_prerhi_enabled : acc (.wrPrerhi 0x00) i1 = some { i1 with faults := [.prescaleWhileEnabled] } := by decide
theorem test_a8_ctr_reset : exec .rdCtr (st i0) = .next ((st i0).answer 0x00) := rfl
theorem test_a11_ctr_read : Inst.ctrByte i1 = 0x80 ∧ Inst.ctrByte { i1 with ien := true } = 0xC0 := by decide
theorem test_a12_a13_disable_active :
    acc (.wrCtr 0x00) { i1 with busy := true } = some { i1 with busy := true, faults := [.disableWhileActive] } ∧
      acc (.wrCtr 0x40) { i1 with inflight := some cWr } = some { i1 with inflight := some cWr, faults := [.disableWhileActive] } := by
  decide
theorem test_a11_a14_a15_ctr_write :
    acc (.wrCtr 0xC0) i0 = some { i0 with en := true, ien := true } ∧
      acc (.wrCtr 0xC0) { i1 with inflight := some cWr } = some { i1 with ien := true, inflight := some cWr } ∧
      acc (.wrCtr 0x00) i1 = some { i1 with en := false } := by decide
theorem test_a17_a19_rxr_unwritten :
    acc .rdRxr i0 = some { i0 with faults := [.unwrittenRead .rxr] } ∧
      acc .rdRxr { i1 with inflight := some cWr } = some { i1 with inflight := some cWr, faults := [.unwrittenRead .rxr] } := by decide
theorem test_a18_a20_rxr_read :
    acc .rdRxr { i1 with inflight := some cRd } = some { i1 with inflight := some cRd } ∧
      State.rxrRead (st { i1 with inflight := some cWr, rxr := some 0x55 }) = some 0x55 := by decide
theorem test_a21_a23_a25_txr_write :
    acc (.wrTxr 0xA1) i1 = some { i1 with txr := some 0xA1 } ∧
      acc (.wrTxr 0x12) { i1 with busy := true, inflight := some cRd } =
        some { i1 with busy := true, inflight := some cRd, txr := some 0x12 } ∧
      acc (.wrTxr 0x12) i0 = some { i0 with txr := some 0x12 } := by decide
theorem test_a22_txr_while_writing :
    acc (.wrTxr 0x12) { i1 with txr := some 0xA0, inflight := some cStaWr } =
      some { i1 with txr := some 0xA0, inflight := some cStaWr, faults := [.txrWhileWriting] } := by decide

/-! Status reads (section 2.3): the bits are RxACK, Busy, four draws, TIP, IF. -/

theorem test_s2_status_idle :
    State.srByte (st { i1 with rxack := some 1, busy := true, iflag := true }) =
      1#1 ++ (1#1 ++ (Config.drawBit 0 5 ++ (Config.drawBit 0 4 ++ (Config.drawBit 0 3 ++ (Config.drawBit 0 2 ++ (0#1 ++ 1#1)))))) := rfl
theorem test_s4_s5_status_in_flight :
    State.tipValue (st { i1 with inflight := some cStaWr }) = 1 ∧
      State.busyValue (st { i1 with inflight := some cWr, busy := true }) = 1 ∧
      State.tipValue (st { i1 with inflight := some cSto }) = Config.drawBit 0 1 ∧
      State.rxackValue (st { i1 with inflight := some cWr, rxack := some 1 }) = Config.drawBit 0 7 := ⟨rfl, rfl, rfl, rfl⟩

/-! Command writes and completions (section 2.4). -/

theorem test_c1_nop : acc .crNop i1 = some i1 := by decide
theorem test_cf1_nop_disabled : acc .crNop i0 = some { i0 with faults := [.commandWhileDisabled] } := by decide
theorem test_c2_iack : acc .crIack { i1 with iflag := true } = some { i1 with iflag := false } := by decide
theorem test_c5_sto_iack : acc (.crSto true) { i1 with iflag := true } = some { i1 with iflag := false, inflight := some cSto } := by decide
theorem test_c3_c4_sto_completes :
    done { i1 with busy := true } cSto [] [] = some { i1 with busy := false, iflag := true, trace := [.stop] } ∧
      done i1 cSto [] [] = some { i1 with iflag := true, trace := [.stop] } := by decide
theorem test_c10_wr :
    acc (.crWr false) { i1 with busy := true, txr := some 0x12 } =
      some { i1 with busy := true, txr := some 0x12, inflight := some cWr } ∧
      done { i1 with busy := true, txr := some 0x12 } cWr [0] [] =
        some { i1 with busy := true, txr := some 0x12, rxack := some 0, iflag := true, trace := [.tx 0x12 0] } := by decide
theorem test_cf2_cf3_cf7_wr_faults :
    acc (.crWr false) { i1 with inflight := some cStaWr } = some { i1 with inflight := some cStaWr, faults := [.commandWhileInFlight] } ∧
      acc (.crWr false) i1 = some { i1 with faults := [.byteWithoutStart] } ∧
      acc (.crWr true) { i1 with iflag := true, inflight := some cWr } =
        some { i1 with iflag := true, inflight := some cWr, faults := [.commandWhileInFlight] } := by decide
theorem test_c11_c12_wr_sto :
    acc (.crWrSto false) { i1 with busy := true, txr := some 0x34 } =
      some { i1 with busy := true, txr := some 0x34, inflight := some cWrSto } ∧
      done { i1 with busy := true, txr := some 0x34 } cWrSto [1] [] =
        some { i1 with txr := some 0x34, rxack := some 1, iflag := true, trace := [.tx 0x34 1, .stop] } := by decide
theorem test_c6_c8_c9_sta_wr :
    acc (.crStaWr true) { i1 with iflag := true, txr := some 0xA0 } = some { i1 with txr := some 0xA0, inflight := some cStaWr } ∧
      done { i1 with txr := some 0xA0 } cStaWr [0] [] =
        some { i1 with txr := some 0xA0, busy := true, rxack := some 0, iflag := true, trace := [.start, .tx 0xA0 0] } ∧
      done { i1 with txr := some 0xA1, busy := true } cStaWr [0] [] =
        some { i1 with txr := some 0xA1, busy := true, rxack := some 0, iflag := true, trace := [.rstart, .tx 0xA1 0] } := by decide
theorem test_cf5_sta_wr_unwritten : acc (.crStaWr false) i1 = some { i1 with faults := [.unwrittenTxr] } := by decide
theorem test_c13_sta_wr_sto :
    acc (.crStaWrSto false) { i1 with txr := some 0xA0 } = some { i1 with txr := some 0xA0, inflight := some cStaWrSto } ∧
      done { i1 with txr := some 0xA0 } cStaWrSto [1] [] =
        some { i1 with txr := some 0xA0, rxack := some 1, iflag := true, trace := [.start, .tx 0xA0 1, .stop] } := by decide
theorem test_c14_rd :
    acc (.crRd false) { i1 with busy := true } = some { i1 with busy := true, inflight := some cRd } ∧
      (done { i1 with busy := true } cRd [] [0xAB]).map (fun i => (i.trace, i.rxr, i.busy)) =
        some ([.rx 0xAB 0], some 0xAB, true) := by decide
theorem test_cf4_rd_without_start : acc (.crRd false) i1 = some { i1 with faults := [.byteWithoutStart] } := by decide
theorem test_c15_rd_ack :
    acc (.crRdAck false) { i1 with busy := true } = some { i1 with busy := true, inflight := some cRdAck } ∧
      (done { i1 with busy := true } cRdAck [] [0x5A]).map (fun i => (i.trace, i.rxr, i.busy)) =
        some ([.rx 0x5A 1], some 0x5A, true) := by decide
theorem test_c16_rd_sto :
    acc (.crRdSto false) { i1 with busy := true } = some { i1 with busy := true, inflight := some cRdSto } ∧
      (done { i1 with busy := true } cRdSto [] [0x01]).map (fun i => (i.trace, i.rxr, i.busy)) =
        some ([.rx 0x01 0, .stop], some 0x01, false) := by decide
theorem test_c17_rd_ack_sto :
    acc (.crRdAckSto false) { i1 with busy := true } = some { i1 with busy := true, inflight := some cRdAckSto } ∧
      (done { i1 with busy := true } cRdAckSto [] [0xCD]).map (fun i => (i.trace, i.rxr, i.busy)) =
        some ([.rx 0xCD 1, .stop], some 0xCD, false) := by decide

/-! The interrupt output (R226), operands (section 2.5), bus targets (R65). -/

theorem test_irq :
    Inst.irq { i1 with ien := true } = false ∧ Inst.irq { i1 with ien := true, iflag := true } = true ∧
      Inst.irq { i1 with iflag := true } = false := by decide
theorem test_prescale :
    prescaleOf 48000000 100000 = 96 ∧ prescaleOf 48000000 3000000 = 3 ∧ prescaleOf 1000000 400000 = 0 ∧
      prescaleLow 2000 = 0xD0 ∧ prescaleHigh 2000 = 0x07 ∧ prescaleLow 200000 = 0x40 ∧ prescaleHigh 200000 = 0x0D := by decide
theorem test_addr_byte :
    addrByte 0x50 1 = 0xA1 ∧ addrByte 0x7F 0 = 0xFE ∧ addrByte 0x3C 1 = 0x79 ∧ addrByte 0x68 0 = 0xD0 := by decide
theorem test_bus_target :
    busTargetAt 0x100 0x110 .word = .register 4 ∧ busTargetAt 0x100 0x114 .word = .illegal ∧ busTargetAt 0x100 0x11F .byte = .illegal ∧
      busTargetAt 0x100 0x102 .word = .illegal ∧ busTargetAt 0x100 0x104 .half = .illegal ∧ busTargetAt 0x100 0xFE .word = .illegal ∧
      busTargetAt 0x100 0x120 .word = .platform ∧ busTargetAt 0x100 0xFC .word = .platform := by decide

/-! Steps. -/

/-- The word placed at reset is the first instruction that runs: 0xA80 sets EN (P1's last write). -/
theorem test_first_step_after_reset :
    instOf (step (State.reset.withFetchWord 12 0xA80)) = some { i0 with en := true } ∧
      instOf (step (State.reset.withFetchWord 12 0x8C8)) = some { i0 with prerlo := some 0xC8 } := by decide
/-- R142: a step that the controller takes completes the command; R72, R250: an outsider's step is refused. -/
theorem test_moves :
    instOf (step { st { i1 with inflight := some cSto } with moves := [.controller] }) =
      some { i1 with iflag := true, trace := [.stop] } ∧
      instOf (step { st i1 with moves := [.midRunReset] }) = some { i1 with refused := true } ∧
      instOf (step { st i1 with moves := [.otherHost] }) = some { i1 with refused := true } := by decide
/-- The abort path of WRITE ends at a nack with the bus open (P4), and DISABLE's program is one write (R184). -/
theorem test_disable_program :
    Call.program (.disable 0) =
      [.ifGoto (.ge (.lit 0) (.lit 1)) 2, .write .cr (.lit 0x40), .ret none] := by decide
/-- R156: the transactions of the trace of P6. -/
theorem test_transactions :
    transactions [.start, .tx 0xA0 1, .rstart, .tx 0xA1 0, .rx 0x7E 1, .stop] =
      [⟨false, some (0xA0, 1), [], false⟩, ⟨true, some (0xA1, 0), [.rx 0x7E 1], true⟩] := by decide

/-! Witnesses: for each statement with hypotheses, a state and operands that meet them all, one per clause. -/

/-- Idle on an open bus with a byte in TXR. -/
def iOpen : Inst := { i1 with busy := true, txr := some 0x12, trace := [.start, .tx 0xA0 0], rxack := some 0, iflag := true }

/-- A start+write command in flight. -/
def iStart : Inst := { i1 with txr := some 0xA0, inflight := some cStaWr }

/-- A read command in flight on an open bus. -/
def iRead : Inst := { iOpen with inflight := some cRdAckSto }

theorem witness_reserved_words :
    (0x30#8 : Byte).getLsbD 5 = true ∧ (0x30#8 : Byte).getLsbD 4 = true ∧ (0x80#8 : Byte).getLsbD 7 = true ∧
      (0x80#8 : Byte).getLsbD 5 = false ∧ (0xA0#8 : Byte).getLsbD 5 = true ∧ (0x08#8 : Byte).getLsbD 3 = true ∧
      (0x08#8 : Byte).getLsbD 5 = false ∧ (0x06#8 : Byte).extractLsb' 1 2 ≠ 0 ∧ (0xFF#8 : Byte) ≠ 0 ∧
      (0x81#8 : Byte).extractLsb' 0 6 ≠ 0 ∧ 5 ≤ 7 ∧ 7 < 8 := by decide

theorem witness_decode_of_encode : Instr.WellFormed (.wrCtr 0xC0) ∧ Instr.WellFormed (.crRdAckSto true) := by decide

theorem witness_encode_of_decode : decode 0xC51#12 = .ok (.crWrSto true) ∧ decode 0x9FF#12 = .ok (.wrPrerhi 0xFF) := by decide

theorem witness_command_record :
    decode (accessWord true 4 0x69) = .ok (.crRdAckSto true) ∧ decode (accessWord true 4 0x01) = .ok .crIack ∧
      exec .crIack (st iOpen) = .next ((st iOpen).setIf false) := ⟨by decide, by decide, rfl⟩

theorem inv_i1 : Inst.Inv i1 := by
  constructor <;> decide

theorem inv_iOpen : Inst.Inv iOpen := by
  constructor
  case slaveAcknowledge => intro a h; cases h; rfl
  all_goals decide

theorem inv_iStart : Inst.Inv iStart := by
  constructor
  case admitted => intro c h; cases h; decide
  case transmitByte => intro c h _; cases h; decide
  case openForByte => intro c h _; cases h; decide
  case enabled => intro c h; rfl
  all_goals decide

/-- The start+write command completes, the slave acknowledging. -/
theorem witness_step_keeps_invariant :
    State.Inv { st iStart with moves := [.controller], slaveAcks := [0] } ∧
      instOf (step { st iStart with moves := [.controller], slaveAcks := [0] }) =
        some { i1 with txr := some 0xA0, busy := true, rxack := some 0, iflag := true, trace := [.start, .tx 0xA0 0] } :=
  ⟨⟨inv_iStart, List.Pairwise.nil⟩, by decide⟩

/-- The host writes CR_STO on an open bus. -/
theorem witness_trace_only_appended :
    State.Inv (running iOpen [.access 0xC40] 1) ∧
      instOf (step (running iOpen [.access 0xC40] 1)) = some { iOpen with inflight := some cSto } :=
  ⟨⟨inv_iOpen, List.Pairwise.nil⟩, by decide⟩

theorem witness_step_runs_the_decoded_access :
    i1.live = true ∧ (running i1 [.access 0xBA1] 1).chooseMove.1 = .host ∧
      (running i1 [.access 0xBA1] 1).chooseMove.2.fetch = some (.access 0xBA1) ∧ decode 0xBA1#12 = .ok (.wrTxr 0xA1) ∧
      (running i1 [.read .sr 0] 1).chooseMove.2.fetch = some (.read .sr 0) ∧ decode (readWord 4) = .ok .rdSr ∧
      (running i1 [.write .txr (num 0xA1)] 1).chooseMove.2.fetch = some (.write .txr (num 0xA1)) ∧
      (running i1 [.write .txr (num 0xA1)] 1).chooseMove.2.eval (num 0xA1) = some 0xA1 ∧
      decode (writeWord 3 0xA1) = .ok (.wrTxr 0xA1) ∧ ((st i1).raise .prescaleWhileEnabled).inst.live = false := by decide

theorem witness_step_runs_the_placed_word : State.reset.inst.live = true ∧ decodeTableWord 12 0xA80 = some (.wrCtr 0x80) := by decide

/-- An access word, and a `W` statement, that decode to nothing. -/
theorem witness_unadmitted_access :
    (i1.live = true ∧ (running i1 [.access 0xC30] 1).chooseMove.1 = .host ∧ decode 0xC30#12 = .error .readAndWrite ∧
      (running i1 [.write .ctr (num 0x81)] 1).chooseMove.1 = .host ∧ decode (writeWord 2 0x81) = .error .ctrReservedBits ∧
      (st i1).refuse.inst.refused = true) ∧
    (running i1 [.access 0xC30] 1).chooseMove.2.NextAccess 0xC30 ∧
    (running i1 [.write .ctr (num 0x81)] 1).chooseMove.2.NextAccess (writeWord 2 0x81) :=
  ⟨by decide, ⟨.access 0xC30, rfl, rfl⟩, .write .ctr (num 0x81), rfl, 0x81, rfl, rfl⟩

theorem witness_quiescent :
    ((st i1).raise .prescaleWhileEnabled).inst.faults ≠ [] ∧ (st i1).refuse.inst.refused = true := by decide

theorem witness_live_and_idle : (st i1).inst.live = true ∧ (st i1).moves = [] ∧ (st i1).inst.inflight = none := by decide

theorem witness_prescale_writes : i0.live = true ∧ i0.en = false ∧ i1.live = true ∧ i1.en = true := by decide

theorem witness_prescale_reads :
    i1.live = true ∧ i1.prerlo = some 0x60 ∧ i1.prerhi = some 0x00 ∧ i0.live = true ∧ i0.prerlo = none ∧ i0.prerhi = none := by decide

theorem witness_control_write :
    iOpen.live = true ∧ (0x01#8 : Byte).extractLsb' 0 6 ≠ 0 ∧ (0x40#8 : Byte).extractLsb' 0 6 = 0 ∧ iOpen.en = true ∧
      (0x40#8 : Byte).getLsbD 7 = false ∧ iOpen.busy = true ∧ iStart.live = true ∧ iStart.en = true ∧ iStart.inflight ≠ none ∧
      i0.live = true ∧ i0.en = false ∧ (0xC0#8 : Byte).extractLsb' 0 6 = 0 ∧ (0xC0#8 : Byte).getLsbD 7 = true ∧ i1.live = true ∧
      i1.inflight = none ∧ i1.busy = false := by decide

theorem witness_receive_read :
    iRead.live = true ∧ iRead.inflight = some cRdAckSto ∧ cRdAckSto.rd = true ∧ iStart.live = true ∧ iStart.inflight = some cStaWr ∧
      cStaWr.rd = false ∧ iStart.rxr = none ∧ { iOpen with rxr := some 0x55 }.live = true ∧ { iOpen with rxr := some 0x55 }.inflight = none ∧
      { iOpen with rxr := some 0x55 }.rxr = some 0x55 := by decide

theorem witness_transmit_write :
    i0.live = true ∧ i0.inflight = none ∧ iRead.live = true ∧ iRead.inflight = some cRdAckSto ∧ cRdAckSto.wr = false ∧
      iStart.live = true ∧ iStart.inflight = some cStaWr ∧ cStaWr.wr = true := by decide

theorem witness_status_read :
    i1.live = true ∧ i1.inflight = none ∧ i1.rxack = none ∧ iOpen.live = true ∧ iOpen.inflight = none ∧ iOpen.rxack = some 0 ∧
      iStart.inflight = some cStaWr ∧ iRead.inflight = some cRdAckSto ∧ { i1 with inflight := some cSto }.live = true ∧
      cSto.rd = false ∧ cSto.wr = false ∧ cWr.sta = false ∧ cWr.sto = false ∧ { iOpen with inflight := some cWr }.live = true := by decide

theorem witness_command_write :
    Instr.command (.crStaWr true) = some (cStaWr, true) ∧ i1.live = true ∧ decode (accessWord true 4 0x30) = .error .readAndWrite := by decide

theorem witness_nop_and_acknowledge :
    i1.live = true ∧ i1.en = true ∧ i1.inflight = none ∧ i0.live = true ∧ i0.en = false ∧ iStart.live = true ∧ iStart.en = true ∧
      iStart.inflight ≠ none ∧ decode (accessWord true 4 0x00) = .ok .crNop := by decide

theorem witness_commands_issue :
    iOpen.live = true ∧ iOpen.en = true ∧ iOpen.inflight = none ∧ iOpen.busy = true ∧ iOpen.txr = some 0x12 := by decide

/-- Once with no fault, once with one. -/
theorem witness_acknowledge_bit :
    Instr.command (.crSto true) = some (cSto, true) ∧ Instr.command (.crSto false) = some (cSto, false) ∧ iOpen.live = true ∧
      acc (.crSto false) iOpen = some { iOpen with inflight := some cSto } ∧ i0.live = true ∧
      acc (.crSto false) i0 = some { i0 with faults := [.commandWhileDisabled] } ∧ cSto.starts = true := by decide

theorem witness_completion :
    i1.live = true ∧ i1.inflight = none ∧ iStart.live = true ∧ iStart.inflight = some cStaWr ∧ (cStaWr.rd && cStaWr.wr) = false ∧
      iStart.txr.isSome = true ∧ iRead.live = true ∧ iRead.inflight = some cRdAckSto ∧ (cRdAckSto.rd && cRdAckSto.wr) = false ∧
      cRdAckSto.wr = false ∧ { iOpen with inflight := some cSto }.live = true ∧ cSto.rd = false ∧ cSto.wr = false := by decide

theorem witness_placed_answers :
    iStart.live = true ∧ iStart.inflight = some cStaWr ∧ cStaWr.wr = true ∧ cStaWr.rd = false ∧ iStart.txr = some 0xA0 ∧
      { st iStart with slaveAcks := [1, 0] }.slaveAcks = 1 :: [0] ∧ iRead.live = true ∧ iRead.inflight = some cRdAckSto ∧
      cRdAckSto.rd = true ∧ cRdAckSto.wr = false ∧ { st iRead with slaveBytes := [0xCD] }.slaveBytes = 0xCD :: [] := by decide

theorem witness_stop_and_flag :
    { iOpen with inflight := some cWrSto }.inflight = some cWrSto ∧ cWrSto.sto = true ∧
      done iOpen cWrSto [1] [] =
        some { iOpen with busy := false, rxack := some 1, iflag := true, trace := [.start, .tx 0xA0 0, .tx 0x12 1, .stop] } := by decide

/-- A host's step, and a controller's step with nothing in flight. -/
theorem witness_only_completion :
    (running iOpen [.access 0xBA1] 1).chooseMove.1 ≠ .controller ∧
      instOf (step (running iOpen [.access 0xBA1] 1)) = some { iOpen with txr := some 0xA1 } ∧ iOpen.inflight = none ∧
      instOf (step { st iOpen with moves := [.controller] }) = some iOpen := by decide

/-- Busy set by a start, and cleared by a stop. -/
theorem witness_busy :
    instOf (step { st iStart with moves := [.controller], slaveAcks := [0] }) =
        some { i1 with txr := some 0xA0, busy := true, rxack := some 0, iflag := true, trace := [.start, .tx 0xA0 0] } ∧
      iStart.busy = false ∧
      instOf (step { st { iOpen with inflight := some cSto } with moves := [.controller] }) =
        some { iOpen with busy := false, trace := [.start, .tx 0xA0 0, .stop] } ∧ iOpen.busy = true := by decide

/-- IF set by a completion, and cleared by a write with IACK. -/
theorem witness_flag :
    iStart.iflag = false ∧ (done iStart cStaWr [0] []).map (fun i => i.iflag) = some true ∧ iOpen.iflag = true ∧
      instOf (step (running iOpen [.access 0xC01] 1)) = some { iOpen with iflag := false } ∧
      decode 0xC01#12 = .ok .crIack ∧ Instr.command .crIack = some (emptyCommand, true) ∧ acc .crIack iOpen = some { iOpen with iflag := false } := by decide

/-- The output rises at a CTR write while IF = 1, and at a completion with IEN = 1. -/
theorem witness_irq :
    Inst.irq iOpen = false ∧ (instOf (step (running iOpen [.access 0xAC0] 1))).map Inst.irq = some true ∧
      Inst.irq { iStart with ien := true } = false ∧
      (instOf (step { st { iStart with ien := true } with moves := [.controller], slaveAcks := [0] })).map Inst.irq = some true := by decide

theorem witness_fault_only : acc (.wrPrerlo 0xC8) i1 = some { i1 with faults := [.prescaleWhileEnabled] } ∧ i1.faults = [] := by decide

/-- A read answered, and a read of a register holding no value. -/
theorem witness_reads :
    Instr.isWrite .rdPrerlo = false ∧ acc .rdPrerlo i1 = some i1 ∧
      acc .rdPrerlo i0 = some { i0 with faults := [.unwrittenRead .prerlo] } := by decide

theorem witness_register_writes :
    exec (.wrPrerlo 0xC0) (st i0) = .next ((st i0).setPrerlo 0xC0) ∧ ((st i0).setPrerlo 0xC0).inst.live = true ∧
      exec (.wrPrerhi 0xC0) (st i0) = .next ((st i0).setPrerhi 0xC0) ∧ ((st i0).setPrerhi 0xC0).inst.live = true ∧
      exec (.wrCtr 0xC0) (st i0) = .next ((st i0).setCtr true true) ∧ ((st i0).setCtr true true).inst.live = true ∧
      exec (.wrTxr 0xC0) (st i0) = .next ((st i0).setTxr 0xC0) ∧ ((st i0).setTxr 0xC0).inst.live = true :=
  ⟨rfl, rfl, rfl, rfl, rfl, rfl, rfl, rfl⟩

theorem witness_command_frame :
    Instr.command (.crWr true) = some (cWr, true) ∧ acc (.crWr true) iOpen = some { iOpen with iflag := false, inflight := some cWr } ∧
      acc (.crWr true) i0 = some { i0 with faults := [.commandWhileDisabled] } := by decide

theorem witness_prescale_never_read :
    exec .rdCtr (st i1) = .next ((st i1).answer 0x80) ∧
      completionStep (st { iOpen with inflight := some cSto }) =
        .next { st { iOpen with busy := false, trace := [.start, .tx 0xA0 0, .stop] } with draws := 1 } := ⟨rfl, rfl⟩

/-- One byte above the base is inside the window and no register; its last word is refused too. -/
theorem witness_bus_access :
    busTarget (Config.base 0 + 1) .word = .illegal ∧ busTarget (Config.base 0 + 31) .byte = .illegal ∧
      busTargetAt 0x100 0xFF .half = .illegal ∧ 0x100 < 0xFF + AccessSize.bytes .half ∧ 0xFF < 0x100 + 32 ∧ (4 : Nat) ≤ 4 ∧
      (st i1).eval (num 0x60) = some 0x60 := by
  refine ⟨?_, ?_, by decide⟩
  · simp [busTarget, busTargetAt, AccessSize.bytes, Config.stride, Config.windowOffsets]
    omega
  · simp [busTarget, busTargetAt, AccessSize.bytes, Config.stride, Config.windowOffsets]

theorem witness_upper_bits : (0x12345678#32 : Word).extractLsb' 0 8 = (0x00000078#32 : Word).extractLsb' 0 8 := by decide

theorem witness_floor_and_address : 127 < 128 ∧ (1 : Nat) ≤ 100000 := by decide

/-- ENABLE from an idle enabled core, from reset, and over an open bus. -/
theorem witness_enable :
    (calling i1 (.enable 0) 8).inst.live = true ∧ (calling i1 (.enable 0) 8).fetch = none ∧
      (calling i1 (.enable 0) 8).host.calls = [.enable 0] ∧ (calling i1 (.enable 0) 8).moves = List.replicate 8 .host ++ [] ∧
      i1.inflight = none ∧ i1.busy = false ∧ (calling iOpen (.enable 0) 8).inst.live = true ∧ (calling iOpen (.enable 0) 8).fetch = none ∧
      iOpen.en = true ∧ iOpen.busy = true ∧ i0.en = false := by decide

theorem witness_set_clock :
    let s := { calling i1 (.setClock 0 400000) 16 with
      host := { HostAgent.reset with calls := [.setClock 0 400000, .setClock 0 400000] } }
    s.inst.live = true ∧ s.fetch = none ∧ 1 ≤ 400000 ∧ s.host.calls = [.setClock 0 400000, .setClock 0 400000] ∧
      s.moves = List.replicate 16 .host ++ [] ∧ s.inst.inflight = none ∧ s.inst.busy = false ∧ iOpen.live = true ∧ iOpen.en = true ∧
      iOpen.busy = true ∧ i0.live = true ∧ i0.en = false ∧ i0.inflight = none ∧ i0.busy = false := by decide

/-- DISABLE on an idle enabled core, on a disabled core, and over a command in flight. -/
theorem witness_disable :
    (calling iOpen (.disable 0) 4).inst.live = true ∧ (calling iOpen (.disable 0) 4).fetch = none ∧
      (calling iOpen (.disable 0) 4).host.calls = [.disable 0] ∧ (calling iOpen (.disable 0) 4).moves = List.replicate 4 .host ++ [] ∧
      iOpen.en = true ∧ iOpen.inflight = none ∧ (calling i0 (.disable 0) 4).inst.live = true ∧ i0.en = false ∧
      (calling iStart (.disable 0) 4).inst.live = true ∧ iStart.en = true ∧ iStart.inflight ≠ none := by decide

theorem witness_out_of_range :
    Config.numInstances ≤ (1 : Word).toNat ∧ (calling iOpen (.write 1 0x50 [0x12] 1) 3).inst.live = true ∧
      (calling iOpen (.write 1 0x50 [0x12] 1) 3).fetch = none ∧ (calling iOpen (.write 1 0x50 [0x12] 1) 3).host.calls = [.write 1 0x50 [0x12] 1] ∧
      (calling iOpen (.read 1 0x50 1 [0]) 3).host.calls = [.read 1 0x50 1 [0]] ∧ (calling iOpen (.enable 1) 3).host.calls = [.enable 1] ∧
      (calling iOpen (.setClock 1 100000) 3).host.calls = [.setClock 1 100000] ∧ (calling iOpen (.disable 1) 3).host.calls = [.disable 1] ∧
      (calling iOpen (.enable 1) 3).moves = List.replicate 3 .host ++ [] := by decide

/-- T-4, T-5, T-6, and a length one above the buffer. -/
theorem witness_malformed :
    (calling i1 (.write 0 0x80 [0x00] 1) 6).inst.live = true ∧ (calling i1 (.write 0 0x80 [0x00] 1) 6).fetch = none ∧
      (calling i1 (.write 0 0x80 [0x00] 1) 6).moves = List.replicate 6 .host ++ [] ∧ 128 ≤ (0x80 : Word).toNat ∧
      (calling i1 (.read 0 0x50 0 [0x00]) 6).host.calls = [.read 0 0x50 0 [0x00]] ∧ [(0x00 : Byte)].length < (2 : Word).toNat ∧
      (calling i1 (.setClock 0 0) 6).host.calls = [.setClock 0 0] := by decide

/-- A poll at index 0, with nothing in flight and with a write command in flight. -/
theorem witness_poll :
    let p := [.read .sr varS, .ifGoto (.eq (.bit (.var varS) 1) (num 1)) 0]
    (running i1 p 2).inst.live = true ∧ (running i1 p 2).moves = [.host, .host] ++ [] ∧ (running i1 p 2).host.pc = 0 ∧
      (running i1 p 2).host.program[0]? = some (.read .sr varS) ∧
      (running i1 p 2).host.program[0 + 1]? = some (.ifGoto (.eq (.bit (.var varS) 1) (num 1)) 0) ∧ i1.inflight = none ∧
      iStart.live = true ∧ iStart.inflight = some cStaWr ∧ cStaWr.wr = true ∧ { i1 with inflight := some cSto }.live = true ∧
      { i1 with inflight := some cSto }.inflight = some cSto ∧ cSto.rd = false ∧ cSto.wr = false := by decide

/-- A check at index 0 after an ACK and after a NACK. -/
theorem witness_check_ack :
    let p := [.read .sr varS, .ifGoto (.eq (.bit (.var varS) 7) (num 1)) 5]
    (running iOpen p 2).inst.live = true ∧ (running iOpen p 2).moves = [.host, .host] ++ [] ∧ (running iOpen p 2).host.pc = 0 ∧
      (running iOpen p 2).host.program[0]? = some (.read .sr varS) ∧
      (running iOpen p 2).host.program[0 + 1]? = some (.ifGoto (.eq (.bit (.var varS) 7) (num 1)) 5) ∧ iOpen.inflight = none ∧
      iOpen.rxack = some 0 ∧ { iOpen with rxack := some 1 }.live = true ∧ { iOpen with rxack := some 1 }.rxack = some 1 := by decide

/-- A transfer at the statement `pc` of its sequence, the last byte not acknowledged. -/
def transfer (c : Call) (pc n : Nat) (vars : List (Nat × Word)) : State :=
  { State.reset with
    inst := { iOpen with rxack := some 1, rxr := some 0x7E }
    moves := List.replicate n .host
    host := { HostAgent.reset with program := c.program, pc := pc, vars := vars, buf := [0x00, 0x00], current := some c } }

theorem witness_address_nack :
    (transfer (.write 0 0x50 [0x12, 0x34] 2) 10 3 []).inst.live = true ∧
      (transfer (.write 0 0x50 [0x12, 0x34] 2) 10 3 []).moves = List.replicate 3 .host ++ [] ∧
      10 = labelIndex lblAddressEnd (Call.lines (.write 0 0x50 [0x12, 0x34] 2)) - 2 ∧
      10 = labelIndex lblAddressEnd (Call.lines (.read 0 0x50 2 [0x00, 0x00])) - 2 ∧
      (transfer (.read 0 0x50 2 [0x00, 0x00]) 10 3 []).inst.inflight = none ∧
      (transfer (.read 0 0x50 2 [0x00, 0x00]) 10 3 []).inst.rxack = some 1 := by decide

theorem witness_data_nack :
    (transfer (.write 0 0x50 [0x12, 0x34] 2) 20 3 []).inst.live = true ∧
      (transfer (.write 0 0x50 [0x12, 0x34] 2) 20 3 []).moves = List.replicate 3 .host ++ [] ∧
      20 = labelIndex lblDataEnd (writeLines 0 0x50 2) - 2 ∧
      (transfer (.write 0 0x50 [0x12, 0x34] 2) 20 3 []).inst.inflight = none ∧
      (transfer (.write 0 0x50 [0x12, 0x34] 2) 20 3 []).inst.rxack = some 1 := by decide

theorem witness_read_copies :
    (transfer (.read 0 0x50 2 [0x00, 0x00]) 19 2 [(3, 1)]).inst.live = true ∧
      (transfer (.read 0 0x50 2 [0x00, 0x00]) 19 2 [(3, 1)]).moves = [.host, .host] ++ [] ∧
      19 = labelIndex lblDataEnd (readLines 0 0x50 2) ∧ varsOrdered [(3, 1)] ∧ lookupVar varK [(3, (1 : Word))] = some 1 ∧
      (1 : Word).toNat < (transfer (.read 0 0x50 2 [0x00, 0x00]) 19 2 [(3, 1)]).host.buf.length ∧
      (transfer (.read 0 0x50 2 [0x00, 0x00]) 19 2 [(3, 1)]).inst.inflight = none ∧
      (transfer (.read 0 0x50 2 [0x00, 0x00]) 19 2 [(3, 1)]).inst.rxr = some 0x7E :=
  ⟨by decide, by decide, by decide, List.pairwise_singleton _ _, by decide, by decide, by decide, by decide⟩

/-- READ and WRITE before the address byte, on an idle core, on one never enabled, and with a read in flight. -/
theorem witness_address_byte :
    let r := transfer (.read 0 0x50 2 [0x00, 0x00]) 6 2 []
    let w := transfer (.write 0 0x50 [0x12, 0x34] 2) 6 2 []
    r.inst.live = true ∧ r.moves = [.host, .host] ++ [] ∧ r.host.program = Call.program (.read 0 0x50 2 [0x00, 0x00]) ∧
      r.host.pc = labelIndex lblAddress (Call.lines (.read 0 0x50 2 [0x00, 0x00])) - 2 ∧
      w.host.program = Call.program (.write 0 0x50 [0x12, 0x34] 2) ∧
      w.host.pc = labelIndex lblAddress (Call.lines (.write 0 0x50 [0x12, 0x34] 2)) - 2 ∧ r.inst.en = true ∧ r.inst.inflight = none ∧
      iRead.inflight = some cRdAckSto ∧ cRdAckSto.wr = false ∧ i0.live = true ∧ i0.en = false ∧ i0.inflight = none :=
  ⟨by decide, by decide, rfl, by decide, rfl, by decide, by decide, by decide, by decide, by decide, by decide, by decide, by decide⟩

/-- READ and WRITE at the first byte of two and at the last. -/
theorem witness_bytes :
    let w := fun k => transfer (.write 0 0x50 [0x12, 0x34] 2) 13 3 [(3, k)]
    let r := fun k => transfer (.read 0 0x50 2 [0x00, 0x00]) 13 2 [(3, k)]
    (w 0).inst.live = true ∧ (w 0).moves = List.replicate 3 .host ++ [] ∧ (w 0).host.pc = labelIndex lblLoop (writeLines 0 0x50 2) ∧
      lookupVar varK (w 0).host.vars = some 0 ∧ (w 0).host.buf[(0 : Word).toNat]? = some 0 ∧ lookupVar varK (w 1).host.vars = some 1 ∧
      (w 1).host.buf[(1 : Word).toNat]? = some 0 ∧ (w 0).inst.en = true ∧ (w 0).inst.inflight = none ∧ (w 0).inst.busy = true ∧
      (r 0).inst.live = true ∧ (r 0).moves = [.host, .host] ++ [] ∧ (r 0).host.pc = labelIndex lblLoop (readLines 0 0x50 2) ∧
      lookupVar varK (r 0).host.vars = some 0 ∧ lookupVar varK (r 1).host.vars = some 1 ∧ (1 : Word) = 2 - 1 ∧ (0 : Word) ≠ 2 - 1 := by decide

/-- A position for each clause, first and last of its range, and a host that runs no transfer. -/
theorem witness_positions :
    (∀ pc, (transfer (.read 0 0x50 1 [0]) pc 0 [(3, 0)]).host.current = some (.read 0 0x50 1 [0])) ∧
    (∀ pc, (transfer (.write 0 0x50 [0] 1) pc 0 [(3, 0)]).host.current = some (.write 0 0x50 [0] 1)) ∧
    [lblAddress, lblAddressEnd, lblData, lblLast, lblDone, lblDataEnd, lblSuccess, lblNack, lblOutOfRange].map
        (fun l => labelIndex l (readLines 0 0x50 1)) = [8, 12, 15, 16, 17, 19, 23, 24, 25] ∧
    [lblAddress, lblAddressEnd, lblData, lblLast, lblDone, lblDataEnd, lblSuccess, lblNack, lblOutOfRange].map
        (fun l => labelIndex l (writeLines 0 0x50 1)) = [8, 12, 16, 17, 18, 22, 24, 25, 26] ∧
    (st i1).host.current = none :=
  ⟨fun _ => rfl, fun _ => rfl, by decide, by decide, rfl⟩

/-- R190 on a READ of one byte: a position of each row and of each gap. -/
theorem test_transaction_states :
    [0, 7, 8, 11, 12, 14, 15, 16, 17, 18, 19, 22, 23, 24, 25, 26].map
        (fun pc => (transfer (.read 0 0x50 1 [0]) pc 0 [(3, 0)]).txnState) =
      [some .idle, some .idle, some .addressPhase, some .addressPhase, none, none, some (.dataPhase 0), none, some (.dataPhase 0),
        some (.dataPhase 0), none, none, some .complete, some .aborted, none, none] := by decide

end Sys2Proof.Tests
end

section
/-! Proofs of the family of the controller's state (10_state.md): the invariant of every step, and what changes the bus trace, Busy, IF and
the prescale. The controller's invariant is read as two halves and the mark count: `BusConsistent` speaks of what only a completion changes,
`CommandConsistent` of what the accesses change too, so that each operation has to restore only the half it touches. -/

namespace Sys2Proof.Machine

/-! Reading a trace that grows at its end. -/

@[simp] theorem busOpen_concat (tr : List BusEvent) (e : BusEvent) : busOpen (tr ++ [e]) = openAfter (busOpen tr) e := by
  simp [busOpen]

/-- The event added at the end must fit the bus as the events before it leave it. -/
theorem traceFits_concat (isOpen : Bool) (tr : List BusEvent) (e : BusEvent) :
    traceFits isOpen (tr ++ [e]) = (traceFits isOpen tr && eventFits (tr.foldl openAfter isOpen) e) := by
  induction tr generalizing isOpen with
  | nil => simp [traceFits]
  | cons x rest ih => simp [traceFits, ih, Bool.and_assoc]

@[simp] theorem traceFits_idle_concat (tr : List BusEvent) (e : BusEvent) :
    traceFits false (tr ++ [e]) = (traceFits false tr && eventFits (busOpen tr) e) :=
  traceFits_concat false tr e

@[simp] theorem lastReceived_concat (tr : List BusEvent) (e : BusEvent) :
    lastReceived (tr ++ [e]) = (receivedByte e).or (lastReceived tr) := by
  cases h : receivedByte e <;> simp [lastReceived, h]

@[simp] theorem lastAcknowledge_concat (tr : List BusEvent) (e : BusEvent) :
    lastAcknowledge (tr ++ [e]) = (acknowledgeSlot e).or (lastAcknowledge tr) := by
  cases h : acknowledgeSlot e <;> simp [lastAcknowledge, h]

/-! The two halves of the invariant. -/

/-- Busy, RXR and RxACK are what the trace says, and every event of the trace fits where it stands (R25, R28, R29, R33). -/
structure BusConsistent (busy : Bool) (rxr : Option Byte) (rxack : Option Bit) (trace : List BusEvent) : Prop where
  busyTrace : busy = busOpen trace
  eventsFit : traceFits false trace = true
  received : rxr = lastReceived trace
  noAcknowledge : lastAcknowledge trace = none → rxack = none
  slaveAcknowledge : ∀ a, lastAcknowledge trace = some (some a) → rxack = some a
  masterAcknowledge : lastAcknowledge trace = some none → rxack.isSome = true

/-- What is in flight is a command that CR's checks let pass, on an enabled core (R31, R115, R119). -/
structure CommandConsistent (inflight : Option Cmd) (en : Bool) (txr : Option Byte) (busy : Bool) : Prop where
  admitted : ∀ c, inflight = some c → c.admitted = true ∧ c.starts = true
  enabled : ∀ c, inflight = some c → en = true
  openEnabled : busy = true → en = true
  transmitByte : ∀ c, inflight = some c → c.wr = true → txr.isSome = true
  openForByte : ∀ c, inflight = some c → c.rd = true ∨ c.wr = true → c.sta = true ∨ busy = true

/-- The bus half, of a controller. -/
def Inst.BusHalf (i : Inst) : Prop := BusConsistent i.busy i.rxr i.rxack i.trace

/-- The command half, of a controller. -/
def Inst.CommandHalf (i : Inst) : Prop := CommandConsistent i.inflight i.en i.txr i.busy

/-- At most one fault or refusal is recorded (R222, R228). -/
def Inst.OneMark (i : Inst) : Prop := i.faults.length + i.refused.toNat ≤ 1

theorem Inst.inv_iff (i : Inst) : i.Inv ↔ i.CommandHalf ∧ i.BusHalf ∧ i.OneMark := by
  constructor
  · intro h
    exact ⟨⟨h.admitted, h.enabled, h.openEnabled, h.transmitByte, h.openForByte⟩,
      ⟨h.busyTrace, h.eventsFit, h.received, h.noAcknowledge, h.slaveAcknowledge, h.masterAcknowledge⟩, h.oneMark⟩
  · rintro ⟨hc, hb, hm⟩
    exact ⟨hc.admitted, hc.enabled, hc.openEnabled, hc.transmitByte, hc.openForByte, hb.busyTrace, hb.eventsFit, hb.received,
      hb.noAcknowledge, hb.slaveAcknowledge, hb.masterAcknowledge, hm⟩

/-! Each bus event keeps the bus half. -/

section
variable {busy : Bool} {rxr : Option Byte} {rxack : Option Bit} {trace : List BusEvent}

/-- An event that carries no byte leaves RXR and RxACK as they are. -/
theorem BusConsistent.noByte (h : BusConsistent busy rxr rxack trace) {e : BusEvent} (hfits : eventFits busy e = true)
    (hrx : receivedByte e = none) (hack : acknowledgeSlot e = none) : BusConsistent (openAfter busy e) rxr rxack (trace ++ [e]) where
  busyTrace := by rw [busOpen_concat, h.busyTrace]
  eventsFit := by simp [h.eventsFit, ← h.busyTrace, hfits]
  received := by simpa [hrx] using h.received
  noAcknowledge := by simpa [hack] using h.noAcknowledge
  slaveAcknowledge := by simpa [hack] using h.slaveAcknowledge
  masterAcknowledge := by simpa [hack] using h.masterAcknowledge

theorem BusConsistent.start (h : BusConsistent busy rxr rxack trace) :
    BusConsistent true rxr rxack (trace ++ [if busy then .rstart else .start]) := by
  cases busy with
  | false => exact h.noByte (e := .start) rfl rfl rfl
  | true => exact h.noByte (e := .rstart) rfl rfl rfl

theorem BusConsistent.stop (h : BusConsistent busy rxr rxack trace) : BusConsistent false rxr rxack (trace ++ [.stop]) :=
  h.noByte (e := .stop) rfl rfl rfl

theorem BusConsistent.transmit (h : BusConsistent busy rxr rxack trace) (hopen : busy = true) (b : Byte) (a : Bit) :
    BusConsistent busy rxr (some a) (trace ++ [.tx b a]) where
  busyTrace := by simpa [openAfter] using h.busyTrace
  eventsFit := by simp [h.eventsFit, ← h.busyTrace, hopen, eventFits]
  received := by simpa [receivedByte] using h.received
  noAcknowledge := by simp [acknowledgeSlot]
  slaveAcknowledge := by simp [acknowledgeSlot]
  masterAcknowledge := by simp [acknowledgeSlot]

theorem BusConsistent.receive (h : BusConsistent busy rxr rxack trace) (hopen : busy = true) (b : Byte) (m a : Bit) :
    BusConsistent busy (some b) (some a) (trace ++ [.rx b m]) where
  busyTrace := by simpa [openAfter] using h.busyTrace
  eventsFit := by simp [h.eventsFit, ← h.busyTrace, hopen, eventFits]
  received := by simp [receivedByte]
  noAcknowledge := by simp [acknowledgeSlot]
  slaveAcknowledge := by simp [acknowledgeSlot]
  masterAcknowledge := by simp

end

/-! What one completion can do. -/

theorem State.writeIf_cases {s u : State} {c : Cmd} (h : s.writeIf c = some u) :
    (c.wr = false ∧ u = s) ∨ (c.wr = true ∧ ∃ b, s.inst.txr = some b ∧ u = s.phaseWrite b) := by
  unfold State.writeIf at h
  cases hw : c.wr with
  | false => simp_all
  | true =>
    obtain ⟨b, hb, rfl⟩ := Option.map_eq_some_iff.1 (by simpa [hw] using h)
    exact .inr ⟨rfl, b, hb, rfl⟩

@[simp] theorem State.finish_busy (s : State) : s.finish.inst.busy = s.inst.busy := rfl

@[simp] theorem State.finish_trace (s : State) : s.finish.inst.trace = s.inst.trace := rfl

theorem State.startIf_busy (s : State) (c : Cmd) : (s.startIf c).inst.busy = (c.sta || s.inst.busy) := by
  unfold State.startIf
  cases c.sta <;> rfl

theorem State.writeIf_busy {s u : State} {c : Cmd} (h : s.writeIf c = some u) : u.inst.busy = s.inst.busy := by
  obtain ⟨-, rfl⟩ | ⟨-, b, -, rfl⟩ := State.writeIf_cases h <;> rfl

theorem State.readIf_busy (s : State) (c : Cmd) : (s.readIf c).inst.busy = s.inst.busy := by
  unfold State.readIf
  cases c.rd <;> rfl

theorem State.stopIf_busy (s : State) (c : Cmd) : (s.stopIf c).inst.busy = (!c.sto && s.inst.busy) := by
  unfold State.stopIf
  cases c.sto <;> rfl

/-- STO leaves the bus idle; else STA leaves it busy; else Busy stays (R143, R149). -/
theorem State.complete_busy {s t : State} {c : Cmd} (h : s.complete c = .next t) :
    t.inst.busy = (!c.sto && (c.sta || s.inst.busy)) := by
  obtain ⟨u, hu, rfl⟩ := State.complete_next.1 h
  rw [State.finish_busy, State.stopIf_busy, State.readIf_busy, State.writeIf_busy hu, State.startIf_busy]

/-- Between `s` and `t` only the bus moved: RXR, RxACK, Busy, the trace and the slaves' inputs can differ. -/
structure State.BusOnly (s t : State) : Prop where
  inst : t.inst = { s.inst with rxr := t.inst.rxr, rxack := t.inst.rxack, busy := t.inst.busy, trace := t.inst.trace }
  host : t.host = s.host
  moves : t.moves = s.moves
  draws : t.draws = s.draws

theorem State.BusOnly.refl (s : State) : s.BusOnly s := ⟨rfl, rfl, rfl, rfl⟩

theorem State.BusOnly.trans {s t u : State} (h : s.BusOnly t) (h' : t.BusOnly u) : s.BusOnly u where
  inst := by rw [h'.inst, h.inst]
  host := h'.host.trans h.host
  moves := h'.moves.trans h.moves
  draws := h'.draws.trans h.draws

theorem State.BusOnly.en {s t : State} (h : s.BusOnly t) : t.inst.en = s.inst.en := by rw [h.inst]

theorem State.BusOnly.oneMark {s t : State} (h : s.BusOnly t) (hmark : s.inst.OneMark) : t.inst.OneMark := by
  rw [h.inst]
  exact hmark

theorem State.startIf_busOnly (s : State) (c : Cmd) : s.BusOnly (s.startIf c) := by
  unfold State.startIf
  split
  · exact ⟨rfl, rfl, rfl, rfl⟩
  · exact .refl s

theorem State.writeIf_busOnly {s u : State} {c : Cmd} (h : s.writeIf c = some u) : s.BusOnly u := by
  obtain ⟨-, rfl⟩ | ⟨-, b, -, rfl⟩ := State.writeIf_cases h
  · exact .refl u
  · exact ⟨rfl, rfl, rfl, rfl⟩

theorem State.readIf_busOnly (s : State) (c : Cmd) : s.BusOnly (s.readIf c) := by
  unfold State.readIf
  split
  · exact ⟨rfl, rfl, rfl, rfl⟩
  · exact .refl s

theorem State.stopIf_busOnly (s : State) (c : Cmd) : s.BusOnly (s.stopIf c) := by
  unfold State.stopIf
  split
  · exact ⟨rfl, rfl, rfl, rfl⟩
  · exact .refl s

/-- A completion moves only the bus, and then sets IF and leaves nothing in flight (R141, R151). -/
theorem State.complete_frame {s t : State} {c : Cmd} (h : s.complete c = .next t) :
    ∃ u, s.BusOnly u ∧ t = u.finish := by
  obtain ⟨u, hu, rfl⟩ := State.complete_next.1 h
  exact ⟨_, (((s.startIf_busOnly c).trans (State.writeIf_busOnly hu)).trans (u.readIf_busOnly c)).trans
    ((u.readIf c).stopIf_busOnly c), rfl⟩

/-- Every completion sets IF (R151). -/
theorem State.complete_iflag {s t : State} {c : Cmd} (h : s.complete c = .next t) : t.inst.iflag = true := by
  obtain ⟨u, -, rfl⟩ := State.complete_frame h
  rfl

theorem completionStep_cases {s t : State} (h : completionStep s = .next t) :
    (s.inst.inflight = none ∧ t = s) ∨ ∃ c, s.inst.inflight = some c ∧ s.complete c = .next t := by
  obtain ⟨-, hc⟩ := State.whileLive_next.1 h
  split at hc
  · exact .inr ⟨_, ‹_›, hc⟩
  · cases hc
    exact .inl ⟨‹_›, rfl⟩

theorem completionStep_next {s t : State} {c : Cmd} (hc : s.inst.inflight = some c) (h : completionStep s = .next t) :
    s.complete c = .next t := by
  rwa [completionStep_inflight (State.whileLive_next.1 h).1 hc] at h

/-! Each phase keeps the bus half; a byte phase needs an open bus. -/

theorem State.startIf_busHalf {s : State} (h : s.inst.BusHalf) (c : Cmd) : (s.startIf c).inst.BusHalf := by
  unfold State.startIf
  split
  · exact BusConsistent.start h
  · exact h

theorem State.writeIf_busHalf {s u : State} {c : Cmd} (h : s.inst.BusHalf) (hopen : c.wr = true → s.inst.busy = true)
    (hu : s.writeIf c = some u) : u.inst.BusHalf := by
  obtain ⟨-, rfl⟩ | ⟨hwr, b, -, rfl⟩ := State.writeIf_cases hu
  · exact h
  · exact BusConsistent.transmit h (hopen hwr) b _

theorem State.readIf_busHalf {s : State} {c : Cmd} (h : s.inst.BusHalf) (hopen : c.rd = true → s.inst.busy = true) :
    (s.readIf c).inst.BusHalf := by
  unfold State.readIf
  split
  · exact BusConsistent.receive h (hopen ‹_›) _ _ _
  · exact h

theorem State.stopIf_busHalf {s : State} (h : s.inst.BusHalf) (c : Cmd) : (s.stopIf c).inst.BusHalf := by
  unfold State.stopIf
  split
  · exact BusConsistent.stop h
  · exact h

/-- A completion keeps the invariant of a controller with that command in flight (R119, R141). -/
theorem State.complete_keeps_inv {s t : State} {c : Cmd} (hinv : s.inst.Inv) (hc : s.inst.inflight = some c)
    (h : s.complete c = .next t) : t.inst.Inv := by
  obtain ⟨hcmd, hbus, hmark⟩ := s.inst.inv_iff.1 hinv
  have hen : s.inst.en = true := hcmd.enabled c hc
  refine t.inst.inv_iff.2 ⟨?_, ?_, ?_⟩
  · obtain ⟨u, hu, rfl⟩ := State.complete_frame h
    have hen' : u.inst.en = true := hu.en.trans hen
    exact ⟨nofun, nofun, fun _ => hen', nofun, nofun⟩
  · have hopen : c.rd = true ∨ c.wr = true → (s.startIf c).inst.busy = true := fun hbyte => by
      simpa [State.startIf_busy] using hcmd.openForByte c hc hbyte
    obtain ⟨u, hu, rfl⟩ := State.complete_next.1 h
    have hub : u.inst.BusHalf := State.writeIf_busHalf (State.startIf_busHalf hbus c) (fun hwr => hopen (.inr hwr)) hu
    have hrb : (u.readIf c).inst.BusHalf :=
      State.readIf_busHalf hub fun hrd => (State.writeIf_busy hu).trans (hopen (.inl hrd))
    exact State.stopIf_busHalf hrb c
  · obtain ⟨u, hu, rfl⟩ := State.complete_frame h
    exact hu.oneMark hmark

/-! Each access keeps the invariant. -/

/-- A live run has no mark yet, so one fault is one mark (R220, R222). -/
theorem State.raise_keeps_inv {s : State} (h : s.inst.Inv) (hl : s.inst.live = true) (r : FaultReason) : (s.raise r).inst.Inv := by
  obtain ⟨hcmd, hbus, -⟩ := s.inst.inv_iff.1 h
  obtain ⟨hf, hr⟩ := s.inst.live_iff.1 hl
  exact (Inst.inv_iff _).2 ⟨hcmd, hbus, by simp [Inst.OneMark, hf, hr]⟩

theorem State.refuse_keeps_inv {s : State} (h : s.inst.Inv) (hl : s.inst.live = true) : s.refuse.inst.Inv := by
  obtain ⟨hcmd, hbus, -⟩ := s.inst.inv_iff.1 h
  obtain ⟨hf, -⟩ := s.inst.live_iff.1 hl
  exact (Inst.inv_iff _).2 ⟨hcmd, hbus, by simp [Inst.OneMark, hf]⟩

/-- A core with EN taken away has no command in flight and no open bus (R115). -/
theorem State.setCtr_keeps_inv {s : State} {en : Bool} (h : s.inst.Inv) (ien : Bool)
    (hoff : (s.inst.en && !en && s.inst.active) = false) : (s.setCtr en ien).inst.Inv := by
  obtain ⟨hcmd, hbus, hmark⟩ := s.inst.inv_iff.1 h
  have keep : s.inst.active = true → en = true := fun hact => by
    have hen : s.inst.en = true := by
      rcases (Bool.or_eq_true _ _).mp hact with hin | hbusy
      · obtain ⟨c, hc⟩ := Option.isSome_iff_exists.1 hin
        exact hcmd.enabled c hc
      · exact hcmd.openEnabled hbusy
    simpa [hact, hen] using hoff
  exact (Inst.inv_iff _).2
    ⟨⟨hcmd.admitted, fun c hc => keep (by simp_all [Inst.active]), fun hb => keep (by simp_all [Inst.active]), hcmd.transmitByte,
      hcmd.openForByte⟩, hbus, hmark⟩

theorem State.setTxr_keeps_inv {s : State} (h : s.inst.Inv) (d : Byte) : (s.setTxr d).inst.Inv := by
  obtain ⟨hcmd, hbus, hmark⟩ := s.inst.inv_iff.1 h
  exact (Inst.inv_iff _).2
    ⟨⟨hcmd.admitted, hcmd.enabled, hcmd.openEnabled, fun _ _ _ => rfl, hcmd.openForByte⟩, hbus, hmark⟩

theorem State.acknowledge_keeps_inv {s : State} (h : s.inst.Inv) (k : Bool) : (s.acknowledge k).inst.Inv := by
  cases k with
  | false => exact h
  | true => exact (Inst.inv_iff _).2 (s.inst.inv_iff.1 h)

/-- R119's checks are what the invariant asks of a command in flight. -/
theorem State.issue_keeps_inv {s : State} {c : Cmd} (h : s.inst.Inv) (hadm : c.admitted = true)
    (hf : s.inst.commandFault c = none) : (s.issue c).inst.Inv := by
  obtain ⟨hcmd, hbus, hmark⟩ := s.inst.inv_iff.1 h
  obtain ⟨hen, -, hopen, htxr⟩ := Inst.commandFault_none.1 hf
  cases hst : c.starts with
  | false => simpa [State.issue, hst] using h
  | true =>
    rw [State.issue_starts s hst]
    refine (Inst.inv_iff _).2 ⟨⟨?_, fun _ _ => hen, fun _ => hen, ?_, ?_⟩, hbus, hmark⟩ <;> rintro _ ⟨⟩
    exacts [⟨hadm, hst⟩, htxr, hopen]

theorem exec_keeps_inv {i : Instr} {s t : State} (h : s.inst.Inv) (hx : exec i s = .next t) : t.inst.Inv := by
  obtain ⟨hl, ⟨r, rfl⟩ | ⟨d, -, -, rfl⟩ | ⟨-, b, rfl⟩ | ⟨d, -, -, rfl⟩ | ⟨d, -, -, rfl⟩ | ⟨d, -, hoff, rfl⟩ | ⟨d, -, -, rfl⟩ |
    ⟨c, k, hcmd, hf, rfl⟩⟩ := exec_cases hx
  · exact State.raise_keeps_inv h hl r
  · exact State.refuse_keeps_inv h hl
  · exact h
  · exact (Inst.inv_iff _).2 (s.inst.inv_iff.1 h)
  · exact (Inst.inv_iff _).2 (s.inst.inv_iff.1 h)
  · exact State.setCtr_keeps_inv h _ hoff
  · exact State.setTxr_keeps_inv h d
  · have hf' : (s.acknowledge k).inst.commandFault c = none := by cases k <;> exact hf
    exact State.issue_keeps_inv (State.acknowledge_keeps_inv h k) (command_admitted hcmd) hf'

theorem step_keeps_inst_inv {s t : State} (h : s.inst.Inv) (hs : step s = .next t) : t.inst.Inv := by
  obtain ⟨hl, e | e | ⟨-, w, i, v, -, -, hx, e⟩ | ⟨-, c, hc, hcomp⟩⟩ := step_cases hs
  · rwa [e]
  · exact e ▸ State.refuse_keeps_inv h hl
  · exact e ▸ exec_keeps_inv (by simpa using h) hx
  · exact State.complete_keeps_inv (by simpa using h) (by simpa using hc) hcomp

/-! The host's variables stay in order. -/

theorem runAccess_keeps_vars {w : AccessWord} {dest : Option Nat} {s t : State} (h : varsOrdered s.host.vars)
    (hr : runAccess w dest s = .next t) : varsOrdered t.host.vars := by
  obtain rfl | ⟨i, v, -, hx, rfl⟩ := runAccess_cases hr
  · exact h
  · have hv : v.host.vars = s.host.vars := by rw [(exec_host hx).1]
    rw [← hv] at h
    unfold State.afterAccess
    split
    · cases dest with
      | none => exact h
      | some x => exact insertVar_ordered x _ h
    · exact h

theorem runBusAccess_keeps_vars {a : Nat} {z : AccessSize} {word : Nat → AccessWord} {dest : Option Nat} {s t : State}
    (h : varsOrdered s.host.vars) (hr : runBusAccess a z word dest s = .next t) : varsOrdered t.host.vars := by
  obtain rfl | ⟨k, -, hk⟩ := runBusAccess_cases hr
  · exact h
  · exact runAccess_keeps_vars h hk

/-- A refused value leaves the variables; what goes on with the value has to keep their order. -/
theorem State.withValue_keeps_vars {α : Type} {s t : State} {v : Option α} {k : α → Host.Outcome State Fault Refusal}
    (h : varsOrdered s.host.vars) (hk : ∀ x, k x = .next t → varsOrdered t.host.vars) (hv : s.withValue v k = .next t) :
    varsOrdered t.host.vars := by
  obtain rfl | ⟨x, -, hx⟩ := State.withValue_cases hv
  · exact h
  · exact hk x hx

theorem hostStmt_keeps_vars {st : Stmt} {s t : State} (h : varsOrdered s.host.vars) (hs : hostStmt st s = .next t) :
    varsOrdered t.host.vars := by
  cases st with
  | access w => exact runAccess_keeps_vars h hs
  | write r e => exact State.withValue_keeps_vars h (fun _ => runAccess_keeps_vars h) hs
  | read r x => exact runAccess_keeps_vars h hs
  | memWrite a z e => exact State.withValue_keeps_vars h (fun _ => runBusAccess_keeps_vars h) hs
  | memRead a z x => exact runBusAccess_keeps_vars h hs
  | assign x e =>
    refine State.withValue_keeps_vars h (fun v hv => ?_) hs
    cases hv
    exact insertVar_ordered x v h
  | store k e =>
    refine State.withValue_keeps_vars h (fun j => State.withValue_keeps_vars h fun v hv => ?_) hs
    cases hv
    unfold State.storeByte
    split <;> exact h
  | goto l => cases hs; exact h
  | ifGoto c l =>
    refine State.withValue_keeps_vars h (fun b hb => ?_) hs
    cases hb
    cases b <;> exact h
  | ret e =>
    cases e with
    | none => cases hs; exact .nil
    | some e =>
      refine State.withValue_keeps_vars h (fun v hv => ?_) hs
      cases hv
      exact .nil
  | refuse => cases hs; exact h

theorem hostStep_keeps_vars {s t : State} (h : varsOrdered s.host.vars) (hs : hostStep s = .next t) :
    varsOrdered t.host.vars := by
  obtain ⟨st, -, hst⟩ | ⟨-, c, rest, -, rfl⟩ | ⟨-, -, rfl⟩ := hostStep_cases hs
  · exact hostStmt_keeps_vars h hst
  · exact .nil
  · exact h

theorem completionStep_host {s t : State} (h : completionStep s = .next t) : t.host = s.host := by
  obtain ⟨-, rfl⟩ | ⟨c, -, hc⟩ := completionStep_cases h
  · rfl
  · obtain ⟨u, hu, rfl⟩ := State.complete_frame hc
    exact hu.host

theorem step_keeps_vars {s t : State} (h : varsOrdered s.host.vars) (hs : step s = .next t) : varsOrdered t.host.vars := by
  obtain ⟨-, hm⟩ := State.whileLive_next.1 (show s.whileLive (runMove s.chooseMove.1 s.chooseMove.2) = .next t from hs)
  rw [← s.chooseMove_host] at h
  cases hmv : s.chooseMove.1 <;> rw [hmv] at hm
  case host => exact hostStep_keeps_vars h hm
  case controller => rwa [completionStep_host hm]
  case otherHost => cases hm; exact h
  case midRunReset => cases hm; exact h

/-- Settles O8: `step_cases` says which of an access, a refusal and a completion a step was, and each keeps the invariant. -/
theorem stepKeepsInvariant : Obligations.StepKeepsInvariant := by
  intro s t h hs
  exact ⟨step_keeps_inst_inv h.inst hs, step_keeps_vars h.vars hs⟩

/-! Reset. -/

/-- Settles O6: each entry of R38, read off the definition. -/
theorem resetValues : Obligations.ResetValues := by
  unfold Obligations.ResetValues
  rfl

/-- Settles O7: nothing is in flight and the trace is empty. -/
theorem resetMeetsInvariant : Obligations.ResetMeetsInvariant := by
  have hcmd : Inst.reset.CommandHalf := ⟨nofun, nofun, nofun, nofun, nofun⟩
  have hbus : Inst.reset.BusHalf := ⟨rfl, rfl, rfl, fun _ => rfl, nofun, nofun⟩
  exact ⟨Inst.reset.inv_iff.2 ⟨hcmd, hbus, Nat.zero_le 1⟩, .nil⟩

/-! What a step does on the bus. -/

/-- No access touches the bus: Busy, RXR, RxACK and the trace stay (R155). -/
theorem exec_bus {i : Instr} {s t : State} (h : exec i s = .next t) :
    t.inst.busy = s.inst.busy ∧ t.inst.rxr = s.inst.rxr ∧ t.inst.rxack = s.inst.rxack ∧ t.inst.trace = s.inst.trace := by
  obtain ⟨-, ⟨r, rfl⟩ | ⟨d, -, -, rfl⟩ | ⟨-, b, rfl⟩ | ⟨d, -, -, rfl⟩ | ⟨d, -, -, rfl⟩ | ⟨d, -, -, rfl⟩ | ⟨d, -, -, rfl⟩ |
    ⟨c, k, -, -, rfl⟩⟩ := exec_cases h
  case inr.inr.inr.inr.inr.inr.inr => rw [State.issue_acknowledge]; exact ⟨rfl, rfl, rfl, rfl⟩
  all_goals exact ⟨rfl, rfl, rfl, rfl⟩

/-- A step leaves the bus alone, or it is the completion of the command in flight (R155). -/
theorem step_bus_cases {s t : State} (h : step s = .next t) :
    (t.inst.busy = s.inst.busy ∧ t.inst.rxr = s.inst.rxr ∧ t.inst.rxack = s.inst.rxack ∧ t.inst.trace = s.inst.trace) ∨
      (s.chooseMove.1 = .controller ∧ ∃ c, s.inst.inflight = some c ∧ s.chooseMove.2.complete c = .next t) := by
  obtain ⟨-, e | e | ⟨-, w, i, v, -, -, hx, e⟩ | hcomp⟩ := step_cases h
  · exact .inl (by simp [e])
  · exact .inl (by simp [e])
  · exact .inl (by simpa [e] using exec_bus hx)
  · exact .inr hcomp

theorem State.startIf_trace (s : State) (c : Cmd) :
    ∃ begins, (s.startIf c).inst.trace = s.inst.trace ++ begins ∧ (begins = [] ∨ begins = [.start] ∨ begins = [.rstart]) := by
  unfold State.startIf
  split
  · refine ⟨[if s.inst.busy then .rstart else .start], rfl, ?_⟩
    cases s.inst.busy <;> simp
  · exact ⟨[], (List.append_nil _).symm, .inl rfl⟩

/-- The two byte phases of an admitted command add at most one byte, since RD and WR exclude each other (R90). -/
theorem State.bytePhases_trace {s u : State} {c : Cmd} (hadm : c.admitted = true) (hu : s.writeIf c = some u) :
    ∃ byte, (u.readIf c).inst.trace = s.inst.trace ++ byte ∧
      (byte = [] ∨ (∃ b a, byte = [.tx b a]) ∨ ∃ b m, byte = [.rx b m]) := by
  unfold State.readIf
  obtain ⟨-, rfl⟩ | ⟨hwr, b, -, rfl⟩ := State.writeIf_cases hu
  · split
    · exact ⟨[.rx _ _], rfl, .inr (.inr ⟨_, _, rfl⟩)⟩
    · exact ⟨[], (List.append_nil _).symm, .inl rfl⟩
  · have hrd : c.rd = false := by
      cases h : c.rd
      · rfl
      · simp [Cmd.admitted, h, hwr] at hadm
    simp only [hrd]
    exact ⟨[.tx b (s.slaveAck b)], rfl, .inr (.inl ⟨_, _, rfl⟩)⟩

theorem State.stopIf_trace (s : State) (c : Cmd) :
    ∃ ends, (s.stopIf c).inst.trace = s.inst.trace ++ ends ∧ (ends = [] ∨ ends = [.stop]) := by
  unfold State.stopIf
  split
  · exact ⟨[.stop], rfl, .inr rfl⟩
  · exact ⟨[], (List.append_nil _).symm, .inl rfl⟩

/-- Settles O34: a step that is no completion adds nothing; a completion adds what its phases add, in their order. -/
theorem traceIsOnlyAppendedTo : Obligations.TraceIsOnlyAppendedTo := by
  intro s t hinv hs
  obtain ⟨-, -, -, htrace⟩ | ⟨-, c, hc, hcomp⟩ := step_bus_cases hs
  · exact ⟨[], [], [], by simp [htrace], .inl rfl, .inl rfl, .inl rfl⟩
  · obtain ⟨u, hu, rfl⟩ := State.complete_next.1 hcomp
    obtain ⟨begins, hb, hbegins⟩ := s.chooseMove.2.startIf_trace c
    obtain ⟨byte, hy, hbyte⟩ := State.bytePhases_trace (hinv.inst.admitted c hc).1 hu
    obtain ⟨ends, he, hends⟩ := (u.readIf c).stopIf_trace c
    refine ⟨begins, byte, ends, ?_, hbegins, hbyte, hends⟩
    simp [he, hy, hb]

/-- Settles O35: only a completion touches Busy, and `complete_busy` says how. -/
theorem busyFollowsStartAndStop : Obligations.BusyFollowsStartAndStop := by
  intro s t hs hne
  obtain ⟨hbusy, -⟩ | ⟨hmove, c, hc, hcomp⟩ := step_bus_cases hs
  · exact absurd hbusy hne
  · have hb := State.complete_busy hcomp
    rw [State.chooseMove_inst] at hb
    refine ⟨hmove, c, hc, ?_⟩
    cases hsto : c.sto with
    | true => exact .inl ⟨rfl, by simpa [hsto] using hb⟩
    | false =>
      cases hsta : c.sta with
      | true => exact .inr ⟨rfl, rfl, by simpa [hsto, hsta] using hb⟩
      | false => exact absurd (by simpa [hsto, hsta] using hb) hne

/-! The IF flag. -/

/-- An access leaves IF, or it is a CR write with IACK, which clears it (R131). -/
theorem exec_iflag {i : Instr} {s t : State} (h : exec i s = .next t) :
    t.inst.iflag = s.inst.iflag ∨ (t.inst.iflag = false ∧ ∃ c, i.command = some (c, true)) := by
  obtain ⟨-, ⟨r, rfl⟩ | ⟨d, -, -, rfl⟩ | ⟨-, b, rfl⟩ | ⟨d, -, -, rfl⟩ | ⟨d, -, -, rfl⟩ | ⟨d, -, -, rfl⟩ | ⟨d, -, -, rfl⟩ |
    ⟨c, k, hcmd, -, rfl⟩⟩ := exec_cases h
  case inr.inr.inr.inr.inr.inr.inr =>
    rw [State.issue_acknowledge]
    cases k with
    | false => exact .inl (Bool.and_true _)
    | true => exact .inr ⟨Bool.and_false _, c, hcmd⟩
  all_goals exact .inl rfl

/-- A CR write with IACK that records no fault clears IF (R119, R131). -/
theorem exec_iack_clears {i : Instr} {c : Cmd} {s t : State} (hcmd : i.command = some (c, true)) (h : exec i s = .next t)
    (hf : t.inst.faults = s.inst.faults) : t.inst.iflag = false := by
  rw [exec_command hcmd, State.access_next] at h
  obtain ⟨-, rfl⟩ := h
  obtain ⟨r, -, e⟩ | ⟨-, e⟩ := State.writeCommand_cases s c true
  · simp [e] at hf
  · rw [e, State.issue_acknowledge]
    exact Bool.and_false _

/-- Settles O36: of the cases of a step, only a completion and an access can change IF. -/
theorem flagChangesOnlyByCompletionAndAcknowledge : Obligations.FlagChangesOnlyByCompletionAndAcknowledge := by
  refine ⟨fun s t c hc h => State.complete_iflag (completionStep_next hc h), fun i c s t => exec_iack_clears, ?_⟩
  intro s t hs hne
  obtain ⟨-, e | e | ⟨hmove, w, i, v, hw, hd, hx, e⟩ | ⟨hmove, c, hc, hcomp⟩⟩ := step_cases hs
  · simp [e] at hne
  · simp [e] at hne
  · obtain hkeep | ⟨hclear, c, hcmd⟩ := exec_iflag hx
    · simp [e, hkeep] at hne
    · exact .inr ⟨by rw [e, hclear], hmove, w, i, c, hw, hd, hcmd⟩
  · exact .inl ⟨State.complete_iflag hcomp, hmove, by simp [hc]⟩

/-! The prescale. Every operation of the command engine commutes with overwriting PRER. -/

/-- The state with other values in PRERLO and PRERHI. -/
def State.withPrer (s : State) (lo hi : Option Byte) : State := { s with inst := { s.inst with prerlo := lo, prerhi := hi } }

section
variable (lo hi : Option Byte)

theorem State.withPrer_access {s u t : State} (h : s.access u = .next t) :
    (s.withPrer lo hi).access (u.withPrer lo hi) = .next (t.withPrer lo hi) := by
  obtain ⟨hl, rfl⟩ := State.access_next.1 h
  exact State.access_live hl _

theorem State.withPrer_readHeld (s : State) (r : UnwrittenReg) (held : Option Byte) :
    (s.withPrer lo hi).readHeld r held = (s.readHeld r held).withPrer lo hi := by
  cases held <;> rfl

theorem State.withPrer_writeCommand (s : State) (c : Cmd) (k : Bool) :
    (s.withPrer lo hi).writeCommand c k = (s.writeCommand c k).withPrer lo hi := by
  have hsame : (s.withPrer lo hi).inst.commandFault c = s.inst.commandFault c := rfl
  unfold State.writeCommand
  rw [hsame]
  cases s.inst.commandFault c with
  | some r => rfl
  | none => simp only [State.issue_acknowledge]; rfl

/-- An access that does not name the prescale does the same whatever it holds (R22, R233). -/
theorem exec_withPrer {i : Instr} {s t : State} (hrlo : i ≠ .rdPrerlo) (hrhi : i ≠ .rdPrerhi) (hwlo : ∀ d, i ≠ .wrPrerlo d)
    (hwhi : ∀ d, i ≠ .wrPrerhi d) (h : exec i s = .next t) : exec i (s.withPrer lo hi) = .next (t.withPrer lo hi) := by
  cases hi' : i.command with
  | some p =>
    rw [exec_command hi'] at h ⊢
    rw [State.withPrer_writeCommand]
    exact State.withPrer_access lo hi h
  | none =>
    cases i <;> simp only [Instr.command, reduceCtorEq] at hi'
    case rdPrerlo => exact absurd rfl hrlo
    case rdPrerhi => exact absurd rfl hrhi
    case wrPrerlo d => exact absurd rfl (hwlo d)
    case wrPrerhi d => exact absurd rfl (hwhi d)
    case rdCtr => exact State.withPrer_access lo hi h
    case rdSr => exact State.withPrer_access lo hi h
    case rdRxr =>
      have hread := State.withPrer_access lo hi h
      rwa [← State.withPrer_readHeld] at hread
    case wrTxr d =>
      have hwrite := State.withPrer_access lo hi h
      rwa [apply_ite (State.withPrer · lo hi)] at hwrite
    case wrCtr d =>
      have hwrite := State.withPrer_access lo hi h
      rwa [apply_ite (State.withPrer · lo hi), apply_ite (State.withPrer · lo hi)] at hwrite

theorem State.withPrer_startIf (s : State) (c : Cmd) : (s.withPrer lo hi).startIf c = (s.startIf c).withPrer lo hi := by
  unfold State.startIf
  cases c.sta <;> rfl

theorem State.withPrer_writeIf {s u : State} {c : Cmd} (h : s.writeIf c = some u) :
    (s.withPrer lo hi).writeIf c = some (u.withPrer lo hi) := by
  unfold State.writeIf
  obtain ⟨hwr, rfl⟩ | ⟨hwr, b, hb, rfl⟩ := State.writeIf_cases h
  · rw [hwr]; rfl
  · rw [hwr, show (s.withPrer lo hi).inst.txr = some b from hb]; rfl

theorem State.withPrer_readIf (s : State) (c : Cmd) : (s.withPrer lo hi).readIf c = (s.readIf c).withPrer lo hi := by
  unfold State.readIf
  cases c.rd <;> rfl

theorem State.withPrer_stopIf (s : State) (c : Cmd) : (s.withPrer lo hi).stopIf c = (s.stopIf c).withPrer lo hi := by
  unfold State.stopIf
  cases c.sto <;> rfl

theorem State.withPrer_complete {s t : State} {c : Cmd} (h : s.complete c = .next t) :
    (s.withPrer lo hi).complete c = .next (t.withPrer lo hi) := by
  obtain ⟨u, hu, rfl⟩ := State.complete_next.1 h
  refine State.complete_next.2 ⟨u.withPrer lo hi, ?_, ?_⟩
  · rw [State.withPrer_startIf]
    exact State.withPrer_writeIf lo hi hu
  · rw [State.withPrer_readIf, State.withPrer_stopIf]
    rfl

theorem completionStep_withPrer {s t : State} (h : completionStep s = .next t) :
    completionStep (s.withPrer lo hi) = .next (t.withPrer lo hi) := by
  refine State.whileLive_next.2 ⟨(State.whileLive_next.1 h).1, ?_⟩
  obtain ⟨hc, rfl⟩ | ⟨c, hc, hcomp⟩ := completionStep_cases h
  · rw [show (t.withPrer lo hi).inst.inflight = none from hc]
  · rw [show (s.withPrer lo hi).inst.inflight = some c from hc]
    exact State.withPrer_complete lo hi hcomp

end

/-- Settles O42: `withPrer` commutes with every access that does not name the prescale, and with the completion. -/
theorem prescaleIsNeverRead : Obligations.PrescaleIsNeverRead := by
  intro lo hi s t
  exact ⟨fun i hrlo hrhi hwlo hwhi h => exec_withPrer lo hi hrlo hrhi hwlo hwhi h, completionStep_withPrer lo hi⟩

end Sys2Proof.Machine
end

section
/-! Proofs of the family of memory (20_memory.md): which host accesses reach a register, what an access leaves unchanged, and whose step the
next one is. -/

namespace Sys2Proof.Machine

/-! Whose step it is. -/

theorem step_live {s : State} (h : s.inst.live = true) : step s = runMove s.chooseMove.1 s.chooseMove.2 :=
  State.whileLive_live h _

/-- The agent at the head of `moves` takes the step, and its entry is used up (R70). -/
theorem step_named {s : State} (h : s.inst.live = true) (m : Move) (ms : List Move) :
    step { s with moves := m :: ms } = runMove m { s with moves := ms } :=
  State.whileLive_live h _

theorem State.chooseMove_idle {s : State} (hm : s.moves = []) (hc : s.inst.inflight = none) : s.chooseMove = (.host, s) := by
  simp [State.chooseMove, hm, hc]

/-- Settles O13: `step_named` for the two agents, and the host's turn where `moves` is empty and nothing is in flight. -/
theorem eitherAgentMayMoveNext : Obligations.EitherAgentMayMoveNext := by
  intro s ms hl
  refine ⟨step_named hl .host ms, step_named hl .controller ms, fun hm hc => ?_⟩
  rw [step_live hl, State.chooseMove_idle hm hc]
  rfl

/-- Settles O14: a move of either outsider is a refusal, whatever the state. -/
theorem outsidersAreRefused : Obligations.OutsidersAreRefused := by
  intro s ms hl
  exact ⟨step_named hl .otherHost ms, step_named hl .midRunReset ms⟩

/-! From the host's statement to the meaning of its access. -/

theorem step_host {s : State} {st : Stmt} (hl : s.inst.live = true) (hm : s.chooseMove.1 = .host)
    (hf : s.chooseMove.2.fetch = some st) : step s = hostStmt st s.chooseMove.2 := by
  rw [step_live hl, hm]
  simp [runMove, hostStep, hf]

theorem hostStmt_write {r : WriteReg} {e : Expr} {v : Word} {s : State} (he : s.eval e = some v) :
    hostStmt (.write r e) s = runAccess (writeWord r.offset v) none s := by
  simp [hostStmt, State.withValue, he]

theorem runAccess_decoded {w : AccessWord} {i : Instr} {s t : State} (hd : decode w = .ok i) (hx : exec i s = .next t)
    (dest : Option Nat) : runAccess w dest s = .next (t.afterAccess dest) := by
  simp [runAccess, hd, hx]

theorem State.afterAccess_live {t : State} (h : t.inst.live = true) (dest : Option Nat) :
    t.afterAccess dest = (t.deliver dest).advance :=
  if_pos h

theorem State.afterAccess_quiescent {t : State} (h : t.inst.live = false) (dest : Option Nat) : t.afterAccess dest = t := by
  simp [State.afterAccess, h]

/-- Settles O9: each of the three statements runs its access word, and a live run's meaning answers a next state. -/
theorem stepRunsTheDecodedAccess : Obligations.StepRunsTheDecodedAccess := by
  refine ⟨fun s i w dest hl hm hd hst => ?_, fun t h => State.afterAccess_live h none,
    fun t x h => State.afterAccess_live h (some x), fun t dest h => State.afterAccess_quiescent h dest⟩
  have hrun : step s = runAccess w dest s.chooseMove.2 := by
    obtain ⟨hf, rfl⟩ | ⟨r, x, hf, rfl, rfl⟩ | ⟨r, e, v, hf, he, rfl, rfl⟩ := hst
    · exact step_host hl hm hf
    · exact step_host hl hm hf
    · exact (step_host hl hm hf).trans (hostStmt_write he)
  obtain ⟨t, hx⟩ := exec_live i (s := s.chooseMove.2) (by simpa using hl)
  exact ⟨t, hx, hrun.trans (runAccess_decoded hd hx dest)⟩

/-! Where a bus access goes. -/

/-- The registers' own addresses, at 32 bits, and no other access (R60, R65). -/
theorem busTargetAt_register {lo a k : Nat} {z : AccessSize} :
    busTargetAt lo a z = .register k ↔ z = .word ∧ a = lo + 4 * k ∧ k ≤ 4 := by
  have hstride : Config.stride = 4 := rfl
  have hwindow : Config.windowOffsets = 8 := rfl
  have hoffsets : Config.numOffsets = 5 := rfl
  have hbytes : AccessSize.word.bytes = 4 := rfl
  unfold busTargetAt
  rw [hstride, hwindow, hoffsets]
  split
  case isTrue hout =>
    refine ⟨nofun, ?_⟩
    rintro ⟨rfl, rfl, hk⟩
    omega
  case isFalse hin =>
    split
    case isTrue hword =>
      obtain ⟨hz, hlo, halign, hk⟩ := hword
      rw [BusTarget.register.injEq]
      constructor
      · rintro rfl
        exact ⟨hz, by omega, by omega⟩
      · rintro ⟨-, rfl, -⟩
        omega
    case isFalse hword =>
      refine ⟨nofun, ?_⟩
      rintro ⟨rfl, rfl, hk⟩
      exact absurd ⟨rfl, by omega, by omega, by omega⟩ hword

/-- Only an access that touches no byte of the window is the platform's (R61, R65). -/
theorem busTargetAt_platform {lo a : Nat} {z : AccessSize} (h : busTargetAt lo a z = .platform) :
    a + z.bytes ≤ lo ∨ lo + 32 ≤ a := by
  unfold busTargetAt at h
  split at h
  · assumption
  · split at h <;> cases h

theorem busTarget_registerAddress {k : Nat} (hk : k ≤ 4) : busTarget (registerAddress 0 k) .word = .register k :=
  busTargetAt_register.2 ⟨rfl, rfl, hk⟩

section
variable {a : Nat} {z : AccessSize} {word : Nat → AccessWord} {dest : Option Nat} {s : State}

theorem runBusAccess_register {k : Nat} (h : busTarget a z = .register k) :
    runBusAccess a z word dest s = runAccess (word k) dest s := by
  simp [runBusAccess, h]

theorem runBusAccess_illegal (h : busTarget a z = .illegal) : runBusAccess a z word dest s = .next s.refuse := by
  simp [runBusAccess, h]

theorem hostStmt_memWrite {e : Expr} {v : Word} (he : s.eval e = some v) :
    hostStmt (.memWrite a z e) s = runBusAccess a z (fun k => writeWord k v) none s := by
  simp [hostStmt, State.withValue, he]

end

/-- Settles O43: `busTargetAt_register` says which accesses reach a register, and an illegal one is refused before it is decoded. -/
theorem onlyAlignedWordAccessesReachRegisters : Obligations.OnlyAlignedWordAccessesReachRegisters := by
  refine ⟨fun lo a k z => busTargetAt_register, ?_, fun a x z s h => ⟨s.refuse, runBusAccess_illegal h, rfl⟩,
    fun a z e v s h he => ⟨s.refuse, (hostStmt_memWrite he).trans (runBusAccess_illegal h), rfl⟩, ?_⟩
  · intro lo a z hlo hhi hreg
    cases ht : busTargetAt lo a z with
    | register k => exact absurd ht (hreg k)
    | illegal => rfl
    | platform =>
      have hout := busTargetAt_platform ht
      omega
  · intro k x e v s hk he
    have ht := busTarget_registerAddress hk
    exact ⟨runBusAccess_register ht, (hostStmt_memWrite he).trans (runBusAccess_register ht)⟩

/-- The access word of a write holds only bits 7:0 of the word (R64, R80). -/
theorem writeWord_congr (k : Nat) {v v' : Word} (h : v.extractLsb' 0 8 = v'.extractLsb' 0 8) : writeWord k v = writeWord k v' := by
  simp only [writeWord, h]

/-- Settles O44: the two words give one access word. -/
theorem upperWriteBitsAreIgnored : Obligations.UpperWriteBitsAreIgnored := by
  intro k v v' dest s h
  rw [writeWord_congr k h]

/-! The frame of the reads. -/

theorem State.access_readHeld_cases {s t : State} {r : UnwrittenReg} {held : Option Byte}
    (h : s.access (s.readHeld r held) = .next t) : (∃ r, t = s.raise (.unwrittenRead r)) ∨ ∃ b, t = s.answer b := by
  obtain ⟨-, rfl⟩ := State.access_next.1 h
  obtain ⟨-, e⟩ | ⟨b, -, e⟩ := State.readHeld_cases s r held
  · exact .inl ⟨r, e⟩
  · exact .inr ⟨b, e⟩

/-- A read answers a byte, or faults on a register that holds none; it does nothing else (R68). -/
theorem exec_read_cases {i : Instr} {s t : State} (hi : i.isWrite = false) (h : exec i s = .next t) :
    (∃ r, t = s.raise (.unwrittenRead r)) ∨ ∃ b, t = s.answer b := by
  cases i <;> simp only [Instr.isWrite, reduceCtorEq] at hi
  case rdPrerlo => exact State.access_readHeld_cases h
  case rdPrerhi => exact State.access_readHeld_cases h
  case rdRxr => exact State.access_readHeld_cases h
  case rdCtr => exact .inr ⟨_, (State.access_next.1 h).2⟩
  case rdSr => exact .inr ⟨_, (State.access_next.1 h).2⟩

/-- Settles O39: `exec_read_cases` for the controller, `exec_host` for the rest. -/
theorem readsLeaveTheControllerAlone : Obligations.ReadsLeaveTheControllerAlone := by
  intro i s t hi h
  refine ⟨?_, exec_host h⟩
  obtain ⟨r, rfl⟩ | ⟨b, rfl⟩ := exec_read_cases hi h
  · exact .inr ⟨r, rfl⟩
  · exact .inl rfl

/-! The frame of the register writes. -/

@[simp] theorem State.raise_live (s : State) (r : FaultReason) : (s.raise r).inst.live = false := by
  simp [Inst.live]

@[simp] theorem State.refuse_live (s : State) : s.refuse.inst.live = false := by
  simp [Inst.live]

/-- An access with one check: it faults where the check finds something, else it makes its write. -/
theorem State.access_checked {s w t : State} {check : Bool} {r : FaultReason} :
    s.access (if check then s.raise r else w) = .next t ↔
      s.inst.live = true ∧ (check = true ∧ t = s.raise r ∨ check = false ∧ t = w) := by
  rw [State.access_next]
  cases check <;> simp

section
variable {d : Byte} {s t : State}

theorem exec_wrPrerlo_next :
    exec (.wrPrerlo d) s = .next t ↔
      s.inst.live = true ∧ (s.inst.en = true ∧ t = s.raise .prescaleWhileEnabled ∨ s.inst.en = false ∧ t = s.setPrerlo d) :=
  State.access_checked

theorem exec_wrPrerhi_next :
    exec (.wrPrerhi d) s = .next t ↔
      s.inst.live = true ∧ (s.inst.en = true ∧ t = s.raise .prescaleWhileEnabled ∨ s.inst.en = false ∧ t = s.setPrerhi d) :=
  State.access_checked

theorem exec_wrTxr_next :
    exec (.wrTxr d) s = .next t ↔
      s.inst.live = true ∧ (s.inst.writing = true ∧ t = s.raise .txrWhileWriting ∨ s.inst.writing = false ∧ t = s.setTxr d) :=
  State.access_checked

theorem exec_wrCtr_reserved (hr : ctrReserved d = true) : exec (.wrCtr d) s = .next t ↔ s.inst.live = true ∧ t = s.refuse := by
  simp only [exec, execWrCtr, hr, if_true, State.access_next]

/-- With no reserved bit set, the one check is of a disable while the core is active (R115). -/
theorem exec_wrCtr_next (hr : ctrReserved d = false) :
    exec (.wrCtr d) s = .next t ↔
      s.inst.live = true ∧
        ((s.inst.en && !ctrEnOf d && s.inst.active) = true ∧ t = s.raise .disableWhileActive ∨
          (s.inst.en && !ctrEnOf d && s.inst.active) = false ∧ t = s.setCtr (ctrEnOf d) (ctrIenOf d)) := by
  simp only [exec, execWrCtr, hr, Bool.false_eq_true, if_false]
  exact State.access_checked

end

/-- The check of R115 asks for a change of EN from 1 to 0, and a CTR write just made changes EN no further. -/
theorem State.setCtr_check_repeats (s : State) (en ien : Bool) :
    ((s.setCtr en ien).inst.en && !en && (s.setCtr en ien).inst.active) = false := by
  cases en <;> rfl

/-- Settles O40: a write records a fault or a refusal, after which the run is not live, or writes its register alone; and its check, which does
not look at what it wrote (for CTR: which EN as written passes), finds nothing again. -/
theorem registerWriteFrame : Obligations.RegisterWriteFrame := by
  intro d s t
  refine ⟨fun h => ?_, fun h => ?_, fun h => ?_, fun h => ?_⟩
  · obtain ⟨-, ⟨-, rfl⟩ | ⟨hen, rfl⟩⟩ := exec_wrPrerlo_next.1 h
    · exact ⟨rfl, by simp⟩
    · exact ⟨rfl, fun hlt => exec_wrPrerlo_next.2 ⟨hlt, .inr ⟨hen, rfl⟩⟩⟩
  · obtain ⟨-, ⟨-, rfl⟩ | ⟨hen, rfl⟩⟩ := exec_wrPrerhi_next.1 h
    · exact ⟨rfl, by simp⟩
    · exact ⟨rfl, fun hlt => exec_wrPrerhi_next.2 ⟨hlt, .inr ⟨hen, rfl⟩⟩⟩
  · cases hr : ctrReserved d with
    | true =>
      obtain ⟨-, rfl⟩ := (exec_wrCtr_reserved hr).1 h
      exact ⟨rfl, by simp⟩
    | false =>
      obtain ⟨-, ⟨-, rfl⟩ | ⟨-, rfl⟩⟩ := (exec_wrCtr_next hr).1 h
      · exact ⟨rfl, by simp⟩
      · exact ⟨rfl, fun hlt => (exec_wrCtr_next hr).2 ⟨hlt, .inr ⟨s.setCtr_check_repeats _ _, rfl⟩⟩⟩
  · obtain ⟨-, ⟨-, rfl⟩ | ⟨hwr, rfl⟩⟩ := exec_wrTxr_next.1 h
    · exact ⟨rfl, by simp⟩
    · exact ⟨rfl, fun hlt => exec_wrTxr_next.2 ⟨hlt, .inr ⟨hwr, rfl⟩⟩⟩

end Sys2Proof.Machine
end

section
/-! Proofs of the family of the encoding (30_encoding.md): the decoder and the encoder as inverses on the fields of the access word, and the
host statements that the encoding rules speak of. -/

namespace Sys2Proof

/-! Bits and fields of a byte. -/

theorem byteBit_byteOfBits (f : Nat → Bit) {p : Nat} (hp : p < 8) : byteBit (byteOfBits f) p = (f p).getLsbD 0 := by
  unfold byteBit byteOfBits
  simp only [BitVec.getLsbD_append]
  interval_cases p <;> simp

/-- A field of a byte is 0 exactly when its bits are. -/
theorem byteField_eq_zero {d : Byte} {lo len : Nat} : byteField d lo len = 0 ↔ d.extractLsb' lo len = 0 := by
  rw [← BitVec.toNat_inj, BitVec.extractLsb'_toNat, Nat.shiftRight_eq_div_pow]
  rfl

theorem ctrReserved_iff {d : Byte} : ctrReserved d = true ↔ d.extractLsb' 0 6 ≠ 0 :=
  bne_iff_ne.trans (not_congr byteField_eq_zero)

theorem crReserved_iff {d : Byte} : crReserved d = true ↔ d.extractLsb' 1 2 ≠ 0 :=
  bne_iff_ne.trans (not_congr byteField_eq_zero)

/-! The command byte and the command record (R82, R89). -/

theorem cmdOfByte_commandByte (c : Cmd) (iack : Bool) : cmdOfByte (commandByte c iack) = c := by
  simp [cmdOfByte, commandByte, byteBit_byteOfBits, Config.layout]

theorem iackOfByte_commandByte (c : Cmd) (iack : Bool) : iackOfByte (commandByte c iack) = iack := by
  simp [iackOfByte, commandByte, byteBit_byteOfBits, Config.layout]

theorem crReserved_commandByte (c : Cmd) (iack : Bool) : crReserved (commandByte c iack) = false := by
  rw [← Bool.not_eq_true, crReserved_iff, not_not]
  apply BitVec.eq_of_getLsbD_eq
  intro p hp
  have hbit : byteBit (commandByte c iack) (1 + p) = false := by
    unfold commandByte
    rw [byteBit_byteOfBits _ (by omega)]
    interval_cases p <;> simp [Config.layout]
  simpa [hp, byteBit] using hbit

/-- A command byte with no reserved bit is that of its record and its IACK bit. -/
theorem commandByte_cmdOfByte {d : Byte} (hr : crReserved d = false) : commandByte (cmdOfByte d) (iackOfByte d) = d := by
  rw [← Bool.not_eq_true, crReserved_iff, not_not] at hr
  have h1 : d[1] = false := by simpa using congrArg (·.getLsbD 0) hr
  have h2 : d[2] = false := by simpa using congrArg (·.getLsbD 1) hr
  apply BitVec.eq_of_getLsbD_eq
  intro p hp
  change byteBit (commandByte _ _) p = d.getLsbD p
  unfold commandByte
  rw [byteBit_byteOfBits _ hp]
  interval_cases p <;> simp [Config.layout, cmdOfByte, iackOfByte, byteBit, h1, h2]

/-- The command forms and the records they carry are one table, read from either side (R88). -/
theorem decodeCommand_ok {c : Cmd} {iack : Bool} {i : Instr} : decodeCommand c iack = .ok i ↔ i.command = some (c, iack) := by
  constructor
  · obtain ⟨sta, sto, rd, wr, ack⟩ := c
    intro h
    simp only [decodeCommand] at h
    split at h <;> cases h
    case h_1 => cases iack <;> rfl
    all_goals rfl
  · intro h
    cases i <;> simp only [Instr.command, Option.some.injEq, Prod.mk.injEq, reduceCtorEq] at h <;> obtain ⟨rfl, rfl⟩ := h <;> rfl

/-- The instruction that carries a command is a write of CR with that command's byte. -/
theorem Instr.command_fields {i : Instr} {c : Cmd} {iack : Bool} (h : i.command = some (c, iack)) :
    i.WellFormed ∧ i.isWrite = true ∧ i.offset = 4 ∧ i.dataByte = commandByte c iack := by
  cases i <;> simp only [Instr.command, Option.some.injEq, Prod.mk.injEq, reduceCtorEq] at h <;> obtain ⟨rfl, rfl⟩ := h <;>
    exact ⟨rfl, rfl, rfl, rfl⟩

/-! The decoder on the fields of an access word (R80, R88). -/

/-- Every word is made of its three fields. -/
theorem accessWord_eta (w : AccessWord) : accessWord (AccessWord.isWrite w) (AccessWord.offset w) (AccessWord.data w) = w := by
  apply BitVec.eq_of_getLsbD_eq
  intro p hp
  rw [accessWord_getLsbD]
  unfold AccessWord.isWrite AccessWord.offset AccessWord.data
  split
  case isTrue hdata => simp [hdata]
  case isFalse hdata =>
    split
    case isTrue hoff =>
      rw [BitVec.ofNat_toNat, BitVec.setWidth_eq, BitVec.getLsbD_extractLsb', decide_eq_true (show p - 8 < 3 by omega),
        Bool.true_and, Nat.add_sub_of_le (show 8 ≤ p by omega)]
    case isFalse hoff =>
      obtain rfl : p = 11 := by omega
      simp

theorem Instr.offset_lt_five (i : Instr) : i.offset < 5 := by
  cases i <;> simp [Instr.offset]

theorem decodeRead_ok {k : Nat} {i : Instr} :
    decodeRead k = .ok i ↔ i.isWrite = false ∧ i.offset = k := by
  constructor
  · unfold decodeRead
    intro h
    split at h <;> cases h <;> exact ⟨rfl, rfl⟩
  · rintro ⟨hw, rfl⟩
    cases i <;> simp only [Instr.isWrite, reduceCtorEq] at hw <;> rfl

/-- A read is well-formed, and its DATA byte is 0. -/
theorem Instr.read_fields {i : Instr} (h : i.isWrite = false) : i.WellFormed ∧ i.dataByte = 0 := by
  cases i <;> simp only [Instr.isWrite, reduceCtorEq] at h <;> exact ⟨rfl, rfl⟩

theorem Instr.wrCtr_wellFormed {d : Byte} : (Instr.wrCtr d).WellFormed ↔ ctrReserved d = false := by
  simp [Instr.WellFormed, Instr.wellFormed, ctrReserved]

theorem decodeWrite_command {d : Byte} {i : Instr} :
    decodeWrite 4 d = .ok i ↔ crReserved d = false ∧ i.command = some (cmdOfByte d, iackOfByte d) := by
  rw [← decodeCommand_ok]
  unfold decodeWrite
  cases crReserved d <;> simp

theorem decodeWrite_ok {k : Nat} {d : Byte} {i : Instr} :
    decodeWrite k d = .ok i ↔ i.WellFormed ∧ i.isWrite = true ∧ i.offset = k ∧ i.dataByte = d := by
  constructor
  · intro h
    match k with
    | 0 | 1 | 3 => cases h; exact ⟨rfl, rfl, rfl, rfl⟩
    | 2 =>
      cases hr : ctrReserved d with
      | true => simp [decodeWrite, hr] at h
      | false =>
        obtain rfl : .wrCtr d = i := by simpa [decodeWrite, hr] using h
        exact ⟨Instr.wrCtr_wellFormed.2 hr, rfl, rfl, rfl⟩
    | 4 =>
      obtain ⟨hr, hcmd⟩ := decodeWrite_command.1 h
      rw [← commandByte_cmdOfByte hr]
      exact Instr.command_fields hcmd
    | _ + 5 => cases h
  · rintro ⟨hwf, hw, rfl, rfl⟩
    cases hi : i.command with
    | some p =>
      obtain ⟨c, iack⟩ := p
      obtain ⟨-, -, ho, hd⟩ := Instr.command_fields hi
      rw [ho, hd, decodeWrite_command, cmdOfByte_commandByte, iackOfByte_commandByte]
      exact ⟨crReserved_commandByte c iack, hi⟩
    | none =>
      cases i <;> simp only [Instr.command, Instr.isWrite, reduceCtorEq] at hi hw
      case wrCtr d => simp [decodeWrite, Instr.offset, Instr.dataByte, Instr.wrCtr_wellFormed.1 hwf]
      all_goals rfl

/-- What the decoder admits: a register's offset, and there a write by its data byte, or a read with DATA 0 (R88, R91). -/
theorem decode_ok_cases {w : AccessWord} {i : Instr} :
    decode w = .ok i ↔
      AccessWord.offset w < 5 ∧
        (AccessWord.isWrite w = true ∧ decodeWrite (AccessWord.offset w) (AccessWord.data w) = .ok i ∨
          AccessWord.isWrite w = false ∧ AccessWord.data w = 0 ∧ decodeRead (AccessWord.offset w) = .ok i) := by
  have hoffsets : Config.numOffsets = 5 := rfl
  unfold decode
  rw [hoffsets]
  by_cases hk : 5 ≤ AccessWord.offset w
  · simp [hk]
  · rw [if_neg hk, and_iff_right (by omega)]
    cases AccessWord.isWrite w with
    | true => simp
    | false => by_cases hd : AccessWord.data w = 0#8 <;> simp [hd]

/-- The decoder is the inverse of the encoder on the well-formed instructions (R87, R88). -/
theorem decode_ok {w : AccessWord} {i : Instr} : decode w = .ok i ↔ i.WellFormed ∧ encode i = w := by
  rw [decode_ok_cases]
  constructor
  · rintro ⟨-, h⟩
    have hfields : i.WellFormed ∧ i.isWrite = AccessWord.isWrite w ∧ i.offset = AccessWord.offset w ∧
        i.dataByte = AccessWord.data w := by
      obtain ⟨hw, h⟩ | ⟨hw, hd, h⟩ := h
      · rw [hw]
        exact decodeWrite_ok.1 h
      · obtain ⟨hr, ho⟩ := decodeRead_ok.1 h
        obtain ⟨hwf, hdata⟩ := Instr.read_fields hr
        exact ⟨hwf, hr.trans hw.symm, ho, hdata.trans hd.symm⟩
    obtain ⟨hwf, hw, ho, hd⟩ := hfields
    exact ⟨hwf, by rw [encode, hw, ho, hd, accessWord_eta]⟩
  · rintro ⟨hwf, rfl⟩
    obtain ⟨hw, ho, hd⟩ := Laws.AccessFields.all i
    rw [hw, ho, hd]
    refine ⟨i.offset_lt_five, ?_⟩
    cases hi : i.isWrite with
    | true => exact .inl ⟨rfl, decodeWrite_ok.2 ⟨hwf, hi, rfl, rfl⟩⟩
    | false => exact .inr ⟨rfl, (Instr.read_fields hi).2, decodeRead_ok.2 ⟨hi, rfl⟩⟩

/-- Settles O3: `decode_ok`, from the encoder's side. -/
theorem decodeOfEncode : Obligations.DecodeOfEncode := by
  intro i hwf
  exact decode_ok.2 ⟨hwf, rfl⟩

/-- Settles O4: `decode_ok`, from the decoder's side. -/
theorem encodeOfDecode : Obligations.EncodeOfDecode := by
  intro w i h
  exact decode_ok.1 h

/-! The rows of the opcode map, and the words it does not have. -/

/-- The data byte of an access word is or-ed into the word with DATA 0. -/
theorem accessWord_eq_or (w : Bool) (k : Nat) (d : Byte) : accessWord w k d = accessWord w k 0 ||| d.setWidth 12 := by
  apply BitVec.eq_of_getLsbD_eq
  intro p hp
  rw [BitVec.getLsbD_or, accessWord_getLsbD, accessWord_getLsbD, BitVec.getLsbD_setWidth]
  by_cases h8 : p < 8
  · simp [h8, hp]
  · simp [h8, BitVec.getLsbD_of_ge d p (by omega)]

/-- A row of the opcode map whose data byte is free. -/
theorem decode_write_or {i : Instr} {k : Nat} {row : AccessWord} (hwf : i.WellFormed) (hw : i.isWrite = true) (ho : i.offset = k)
    (hrow : accessWord true k 0 = row) : decode (row ||| i.dataByte.setWidth 12) = .ok i := by
  rw [← hrow, ← ho, ← accessWord_eq_or, ← hw]
  exact decode_ok.2 ⟨hwf, rfl⟩

/-- Settles O1: the words written out are evaluated; a free data byte is or-ed into its row's word. -/
theorem opcodeMapDecodes : Obligations.OpcodeMapDecodes := by
  refine ⟨by decide, fun d => ⟨?_, ?_, ?_⟩, by decide, by decide⟩
  · exact decode_write_or (i := .wrPrerlo d) (k := 0) rfl rfl rfl (by decide)
  · exact decode_write_or (i := .wrPrerhi d) (k := 1) rfl rfl rfl (by decide)
  · exact decode_write_or (i := .wrTxr d) (k := 3) rfl rfl rfl (by decide)

theorem decode_accessWord_ok {w : Bool} {k : Nat} {d : Byte} {i : Instr} (hk : k < 8) :
    decode (accessWord w k d) = .ok i ↔
      k < 5 ∧ (w = true ∧ decodeWrite k d = .ok i ∨ w = false ∧ d = 0 ∧ decodeRead k = .ok i) := by
  rw [decode_ok_cases, accessWord_isWrite, accessWord_offset w hk, accessWord_data]

/-- The decoded CR writes: no reserved bit, and the command of the byte's bits (R88, R89). -/
theorem decode_commandWord_ok {d : Byte} {i : Instr} :
    decode (accessWord true 4 d) = .ok i ↔ crReserved d = false ∧ i.command = some (cmdOfByte d, iackOfByte d) := by
  simp [decode_accessWord_ok, decodeWrite_command]

theorem decode_error {w : AccessWord} (h : ∀ i, decode w ≠ .ok i) : ∃ r, decode w = .error r := by
  cases hd : decode w with
  | error r => exact ⟨r, rfl⟩
  | ok i => exact absurd hd (h i)

/-- The combinations of R90, in the bits of the command byte. -/
theorem cmdOfByte_admitted {d : Byte} (h : (cmdOfByte d).admitted = true) :
    ¬(d.getLsbD 5 = true ∧ d.getLsbD 4 = true) ∧ (d.getLsbD 7 = true → d.getLsbD 4 = true) ∧
      (d.getLsbD 3 = true → d.getLsbD 5 = true) := by
  change (!(d.getLsbD 5 && d.getLsbD 4) && !(d.getLsbD 7 && !d.getLsbD 4) && !(d.getLsbD 3 && !d.getLsbD 5)) = true at h
  generalize d.getLsbD 7 = sta, d.getLsbD 5 = rd, d.getLsbD 4 = wr, d.getLsbD 3 = ack at *
  revert sta rd wr ack
  decide

/-- Settles O2: an admitted word would have an admitted command, DATA 0 in a read, no reserved bit and a register's offset. -/
theorem reservedWordsAreRefused : Obligations.ReservedWordsAreRefused := by
  refine ⟨fun d hd => decode_error fun i hi => ?_, fun k d hd => decode_error fun i hi => ?_,
    fun d hd => decode_error fun i hi => ?_, fun w k d h5 h8 => decode_error fun i hi => ?_⟩
  · obtain ⟨hr, hcmd⟩ := decode_commandWord_ok.1 hi
    obtain ⟨hrw, hsta, hack⟩ := cmdOfByte_admitted (Machine.command_admitted hcmd)
    obtain h | ⟨h7, -, h4⟩ | ⟨h7, h5⟩ | ⟨h3, h5⟩ | hres := hd
    · exact hrw h
    · cases h4.symm.trans (hsta h7)
    · exact hrw ⟨h5, hsta h7⟩
    · cases h5.symm.trans (hack h3)
    · simp [crReserved_iff.2 hres] at hr
  · obtain ⟨-, ⟨hw, -⟩ | ⟨-, hdata, -⟩⟩ := decode_ok_cases.1 hi
    · simp [accessWord_isWrite] at hw
    · exact hd (by rwa [accessWord_data] at hdata)
  · obtain ⟨-, ⟨-, h⟩ | ⟨hw, -⟩⟩ := (decode_accessWord_ok (by decide)).1 hi
    · simp [decodeWrite, ctrReserved_iff.2 hd] at h
    · cases hw
  · obtain ⟨h, -⟩ := (decode_accessWord_ok h8).1 hi
    omega

end Sys2Proof

namespace Sys2Proof.Machine

/-! The command that a CR write puts in flight (R89, R119). -/

/-- A CR write puts its command in flight, if that starts bus activity, or leaves what is in flight. -/
theorem exec_command_inflight {i : Instr} {c : Cmd} {k : Bool} {s t : State} (hcmd : i.command = some (c, k))
    (h : exec i s = .next t) :
    t.inst.inflight = s.inst.inflight ∨ c.starts = true ∧ t.inst.inflight = some c := by
  rw [exec_command hcmd, State.access_next] at h
  obtain ⟨-, rfl⟩ := h
  obtain ⟨r, -, e⟩ | ⟨-, e⟩ := State.writeCommand_cases s c k
  · exact .inl (by simp [e])
  · rw [e, State.issue_acknowledge]
    cases c.starts <;> simp

/-- Settles O5: the record is the decoder's own reading of the byte, and `exec_command_inflight` says what its write does with it. -/
theorem commandRecordOfCommandByte : Obligations.CommandRecordOfCommandByte := by
  intro d i hd
  have hcmd : i.command = some (cmdOfByte d, iackOfByte d) := (decode_commandWord_ok.1 hd).2
  refine ⟨hcmd, fun s t h hne => ?_, fun hi => ?_⟩
  · obtain hkeep | ⟨-, hput⟩ := exec_command_inflight hcmd h
    · exact absurd hkeep hne
    · exact hput
  · have hempty : cmdOfByte d = emptyCommand := by
      obtain rfl | rfl := hi <;> simp only [Instr.command, Option.some.injEq, Prod.mk.injEq] at hcmd <;> exact hcmd.1.symm
    rw [hempty] at hcmd
    refine ⟨hcmd, fun s t h => ?_⟩
    obtain hkeep | ⟨hstarts, -⟩ := exec_command_inflight hcmd h
    · exact hkeep
    · cases hstarts

/-! The prescale (R85, R181). -/

/-- Settles O46: both halves are remainders of one division, and the floor is `Nat`'s quotient. -/
theorem prescaleIsTheFloorInTwoBytes : Obligations.PrescaleIsTheFloorInTwoBytes := by
  refine ⟨fun p => ?_, fun baud hbaud => ?_⟩
  · apply BitVec.eq_of_toNat_eq
    have hlow : (prescaleLow p).toNat = p % 256 := by simp [prescaleLow]
    have hhigh : (prescaleHigh p).toNat = p / 256 % 256 := by simp [prescaleHigh]
    rw [BitVec.toNat_append, ← Nat.shiftLeft_add_eq_or_of_lt (prescaleLow p).isLt, Nat.shiftLeft_eq, hlow, hhigh, BitVec.toNat_ofNat]
    omega
  · have hpos : 0 < 5 * baud := by omega
    exact ⟨Nat.div_mul_le_self _ _, Nat.lt_mul_of_div_lt (Nat.lt_succ_self _) hpos⟩

/-! One host statement, one step. -/

theorem State.chooseMove_named {s : State} {m : Move} {ms : List Move} (hm : s.moves = m :: ms) : s.chooseMove = (m, s.dropMove) := by
  simp [State.chooseMove, hm]

/-- The statement at the pc, where `moves` names the host. -/
theorem step_hostMove {s : State} {st : Stmt} {ms : List Move} (hl : s.inst.live = true) (hm : s.moves = .host :: ms)
    (hf : s.fetch = some st) : step s = hostStmt st s.dropMove := by
  have hmove := State.chooseMove_named hm
  rw [step_host hl (by rw [hmove]) (by rw [hmove]; exact hf), hmove]

theorem coreRun_succ (M : Host.Core) {s t : M.State} (h : M.step s = .next t) (n : Nat) : M.run (n + 1) s = M.run n t := by
  simp [Host.Core.run, h]

theorem runSteps_succ {s t : State} (h : step s = .next t) (n : Nat) : runSteps (n + 1) s = runSteps n t :=
  coreRun_succ Sys2Proof.core h n

/-! Accesses outside the admitted set (R92). -/

theorem runAccess_rejected {w : AccessWord} {r : Reject} {s : State} (hd : decode w = .error r) (dest : Option Nat) :
    runAccess w dest s = .next s.refuse := by
  simp [runAccess, hd]

/-- Settles O11: whichever statement performs the access, it runs its word; and `step_cases` asks for a live run. -/
theorem unadmittedAccessOnlySetsTheMark : Obligations.UnadmittedAccessOnlySetsTheMark := by
  refine ⟨fun s w r hl hm hnext hd => ?_, fun u t hu h => ?_⟩
  · obtain ⟨st, hf, hp⟩ := hnext
    obtain ⟨dest, hrun⟩ := hostStmt_performs hp
    refine ⟨s.chooseMove.2.refuse, ?_, by simp [State.refuse]⟩
    rw [step_host hl hm hf, hrun, runAccess_rejected hd]
  · obtain ⟨-, hr⟩ := u.inst.live_iff.1 (step_cases h).1
    cases hu.symm.trans hr

/-! An opcode-table word placed at the pc. -/

theorem decodeTableWord_some {nbits w : Nat} {i : Instr} (h : decodeTableWord nbits w = some i) :
    tableStmt nbits w = .access (BitVec.ofNat 12 (w % 2 ^ nbits)) ∧ decode (BitVec.ofNat 12 (w % 2 ^ nbits)) = .ok i := by
  unfold decodeTableWord at h
  split at h
  · rename_i hw
    refine ⟨if_pos hw, ?_⟩
    cases hd : decode (BitVec.ofNat 12 (w % 2 ^ nbits)) with
    | error r => simp [hd, Except.toOption] at h
    | ok j => simpa [hd, Except.toOption] using h
  · cases h

theorem placeAt_getElem? (program : List Stmt) (pc : Nat) (t : Stmt) : (placeAt program pc t)[pc]? = some t := by
  have hlen : (program.take pc ++ List.replicate (pc - program.length) Stmt.refuse).length = pc := by
    simp
    omega
  unfold placeAt
  rw [← List.append_assoc, List.getElem?_append_right (by omega), hlen, Nat.sub_self]
  rfl

def State.withProgram (s : State) (program : List Stmt) : State := { s with host := { s.host with program := program } }

/-- The host moves next, and its move leaves of the placing only the program. -/
theorem State.placeAccess_chooseMove (s : State) (nbits w : Nat) :
    (s.placeAccess nbits w).chooseMove = (.host, s.withProgram (placeAt s.host.program s.host.pc (tableStmt nbits w))) := by
  obtain ⟨inst, host, moves, acks, bytes, draws⟩ := s
  cases moves with
  | cons m ms => rfl
  | nil => cases hc : inst.inflight <;> simp [State.chooseMove, State.placeAccess, hostNext, State.withProgram, State.dropMove, hc]

/-- Settles O10: the placed word is the host's next statement, and a live run's meaning answers a next state. -/
theorem stepRunsThePlacedWord : Obligations.StepRunsThePlacedWord := by
  intro s nbits w i hl h
  obtain ⟨hst, hd⟩ := decodeTableWord_some h
  have hchoice := s.placeAccess_chooseMove nbits w
  generalize hp : placeAt s.host.program s.host.pc (tableStmt nbits w) = program at hchoice
  have hf : (s.withProgram program).fetch = some (.access (BitVec.ofNat 12 (w % 2 ^ nbits))) := by
    rw [← hst, ← hp]
    exact placeAt_getElem? _ _ _
  obtain ⟨t, hx⟩ := exec_live i (s := s.withProgram program) hl
  have hstep : step (s.withFetchWord nbits w) = hostStmt (.access (BitVec.ofNat 12 (w % 2 ^ nbits))) (s.withProgram program) := by
    refine (step_host (s := s.placeAccess nbits w) hl (by rw [hchoice]) (by rw [hchoice]; exact hf)).trans ?_
    rw [hchoice]
  exact ⟨s.withProgram program, rfl, rfl, rfl, rfl, rfl, rfl, hf, t, hx, hstep.trans (runAccess_decoded hd hx none)⟩

/-! Reading SR and branching on a bit of it: WAIT_TIP and CHECK_ACK (R98, R99). -/

theorem lookupVar_insertVar_same (x : Nat) (v : Word) (vars : List (Nat × Word)) : lookupVar x (insertVar x v vars) = some v := by
  induction vars with
  | nil => simp [insertVar, lookupVar]
  | cons p rest ih =>
    obtain ⟨y, w⟩ := p
    unfold insertVar
    split
    · simp [lookupVar]
    · split
      · simp [lookupVar]
      · have hyx : y ≠ x := by omega
        simpa [lookupVar, hyx] using ih

@[simp] theorem State.varValue_setVar_same (s : State) (x : Nat) (v : Word) : (s.setVar x v).varValue x = v := by
  simp [State.varValue, lookupVar_insertVar_same]

@[simp] theorem State.varValue_advance (s : State) (x : Nat) : s.advance.varValue x = s.varValue x := rfl

/-- After `R SR -> s`: the status word is in the variable, and in the host's last word read. -/
def State.statusRead (s : State) : State := (s.answer s.srByte).setVar varS (s.draw24 ++ s.srByte)

theorem hostStmt_readStatus {s : State} (hl : s.inst.live = true) :
    hostStmt (.read .sr varS) s = .next s.statusRead.advance := by
  have hd : decode (readWord ReadReg.sr.offset) = .ok .rdSr := by decide
  have hx : exec .rdSr s = .next (s.answer s.srByte) := State.access_live hl _
  rw [hostStmt, runAccess_decoded hd hx, State.afterAccess_live (t := s.answer s.srByte) hl]
  rfl

theorem State.evalCond_bit (s : State) (x p : Nat) :
    s.evalCond (.eq (.bit (.var x) p) (num 1)) = some ((s.varValue x).getLsbD p) := by
  have hbit : ∀ b : Bool, ((BitVec.ofBool b).setWidth 32 == BitVec.ofNat 32 1) = b := by decide
  exact congrArg some (hbit _)

/-- A bit of the register's byte, in the word read. -/
theorem State.statusRead_bit (s : State) {p : Nat} (hp : p < 8) :
    (s.statusRead.advance.varValue varS).getLsbD p = s.srByte.getLsbD p := by
  rw [State.varValue_advance, State.statusRead, State.varValue_setVar_same]
  exact (BitVec.getLsbD_append ..).trans (if_pos hp)

/-- The pair of statements of WAIT_TIP and of CHECK_ACK: to `l` if bit `b` of SR reads 1, else on. -/
theorem runSteps_statusBranch {s : State} {b l : Nat} {ms : List Move} (hb : b < 8) (hl : s.inst.live = true)
    (hm : s.moves = [.host, .host] ++ ms) (hread : s.host.program[s.host.pc]? = some (.read .sr varS))
    (hbranch : s.host.program[s.host.pc + 1]? = some (.ifGoto (.eq (.bit (.var varS) b) (num 1)) l)) :
    runSteps 2 s =
      .next (s.statusRead.dropMove.dropMove.setPc (if s.srByte.getLsbD b = true then l else s.host.pc + 2)) := by
  have h1 : step s = .next s.dropMove.statusRead.advance := by
    rw [step_hostMove hl hm hread, hostStmt_readStatus (s := s.dropMove) hl]
  have hm2 : s.dropMove.statusRead.advance.moves = .host :: ms := congrArg List.tail hm
  have hcond : s.dropMove.statusRead.advance.dropMove.evalCond (.eq (.bit (.var varS) b) (num 1)) = some (s.srByte.getLsbD b) :=
    (State.evalCond_bit _ _ _).trans (congrArg some (s.dropMove.statusRead_bit hb))
  have h2 : step s.dropMove.statusRead.advance =
      .next (s.statusRead.dropMove.dropMove.setPc (if s.srByte.getLsbD b = true then l else s.host.pc + 2)) := by
    rw [step_hostMove (s := s.dropMove.statusRead.advance) hl hm2 hbranch, hostStmt, hcond]
    cases s.srByte.getLsbD b <;> rfl
  rw [runSteps_succ h1, runSteps_succ h2]
  rfl

theorem bit_set_iff (a : Bit) : a.getLsbD 0 = true ↔ a = 1 := by
  revert a
  decide

theorem State.srByte_tip (s : State) : s.srByte.getLsbD 1 = s.tipValue.getLsbD 0 :=
  byteBit_byteOfBits _ (by decide)

theorem State.srByte_rxack (s : State) : s.srByte.getLsbD 7 = s.rxackValue.getLsbD 0 :=
  byteBit_byteOfBits _ (by decide)

/-- Settles O52: the poll branches on TIP, whose value R118 gives by what is in flight. -/
theorem pollFollowsTransferInProgress : Obligations.PollFollowsTransferInProgress := by
  rintro s p ms hl hm rfl hread hbranch
  have hrun := runSteps_statusBranch (by decide) hl hm hread hbranch
  have hmoves : s.moves.tail.tail = ms := by rw [hm]; rfl
  rw [State.srByte_tip] at hrun
  refine ⟨fun hc => ⟨_, hrun, ?_, rfl, hmoves⟩, fun c hc hbyte => ⟨_, hrun, ?_, rfl, hmoves⟩,
    fun c hc hrd hwr => ⟨_, hrun, ?_, rfl, hmoves⟩⟩
  · have htip : s.tipValue = 0 := by simp [State.tipValue, hc]
    rw [htip]
    rfl
  · have htip : s.tipValue = 1 := by
      obtain h | h := hbyte <;> simp [State.tipValue, hc, h]
    rw [htip]
    rfl
  · have htip : s.tipValue = Config.drawBit s.draws 1 := by simp [State.tipValue, hc, hrd, hwr, Config.layout]
    rw [htip]
    exact if_congr (bit_set_iff _) rfl rfl

/-- Settles O53: CHECK_ACK branches on RxACK, which reads as it stands with nothing in flight. -/
theorem checkAckBranchesOnNack : Obligations.CheckAckBranchesOnNack := by
  rintro s p l a ms hl hm rfl hread hbranch hc ha
  have hrun := runSteps_statusBranch (by decide) hl hm hread hbranch
  have hrxack : s.rxackValue = a := by simp [State.rxackValue, hc, ha]
  have hmoves : s.moves.tail.tail = ms := by rw [hm]; rfl
  rw [State.srByte_rxack, hrxack] at hrun
  exact ⟨_, hrun, if_congr (bit_set_iff a) rfl rfl, rfl, hmoves⟩

/-! The address phase of READ and WRITE (R84, R186, R187). -/

theorem addrByte_eq_append {address : Nat} (h : address < 128) (dir : Bit) : addrByte address dir = BitVec.ofNat 7 address ++ dir := by
  apply BitVec.eq_of_toNat_eq
  rw [addrByte, BitVec.toNat_append, BitVec.toNat_ofNat, BitVec.toNat_ofNat, Nat.mod_mod_of_dvd _ (by decide), Nat.mod_eq_of_lt h,
    ← Nat.shiftLeft_add_eq_or_of_lt dir.isLt, Nat.shiftLeft_eq]
  omega

/-- The expression of the address byte, in the sequences. -/
def addressExpr (addr : Word) (dir : Nat) : Expr := .bin .mod (.bin .or (.bin .shl (.lit addr) (num 1)) (num dir)) (num 256)

/-- 32-bit arithmetic gives the address byte, since R84 keeps only the 8 low bits. -/
theorem State.eval_addressExpr (s : State) (addr : Word) (dir : Bit) :
    ∃ v, s.eval (addressExpr addr dir.toNat) = some v ∧ v.extractLsb' 0 8 = addrByte addr.toNat dir := by
  refine ⟨(addr <<< 1 ||| BitVec.ofNat 32 dir.toNat) % 256#32, rfl, ?_⟩
  have h256 : (256#32).toNat = 2 ^ 8 := rfl
  have hdir : dir.toNat % 2 ^ 32 = dir.toNat := Nat.mod_eq_of_lt (dir.isLt.trans (by decide))
  apply BitVec.eq_of_toNat_eq
  rw [BitVec.extractLsb'_toNat, BitVec.toNat_umod, h256, BitVec.toNat_or, BitVec.toNat_shiftLeft, BitVec.toNat_ofNat, hdir,
    Nat.shiftRight_zero, Nat.mod_mod, Nat.or_mod_two_pow, Nat.mod_mod_of_dvd _ (by decide), ← Nat.or_mod_two_pow]
  simp [addrByte]

/-- The start+write command of the address phase. -/
def addressCommand : Cmd := { sta := true, sto := false, rd := false, wr := true, ack := false }

/-- READ and WRITE with the direction bit of their address byte (R84). -/
def Call.Transfers (c : Call) (addr : Word) (dir : Bit) : Prop :=
  (∃ i len buf, c = .read i addr len buf ∧ dir = 1) ∨ ∃ i len buf, c = .write i addr buf len ∧ dir = 0

/-- The two writes of the address phase, in the program of either call. -/
theorem Call.Transfers.addressWrites {c : Call} {addr : Word} {dir : Bit} (h : c.Transfers addr dir) :
    c.program[labelIndex lblAddress c.lines - 2]? = some (.write .txr (addressExpr addr dir.toNat)) ∧
      c.program[labelIndex lblAddress c.lines - 2 + 1]? = some (.write .cr (crByte addressCommand false)) := by
  obtain ⟨i, len, buf, rfl, rfl⟩ | ⟨i, len, buf, rfl, rfl⟩ := h <;> exact ⟨rfl, rfl⟩

theorem hostStmt_writeTxr {s : State} {e : Expr} {v : Word} (hl : s.inst.live = true) (he : s.eval e = some v)
    (hw : s.inst.writing = false) : hostStmt (.write .txr e) s = .next (s.setTxr (v.extractLsb' 0 8)).advance := by
  have hd : decode (writeWord WriteReg.txr.offset v) = .ok (.wrTxr (v.extractLsb' 0 8)) := decode_ok.2 ⟨rfl, rfl⟩
  have hx : exec (.wrTxr (v.extractLsb' 0 8)) s = .next (s.setTxr (v.extractLsb' 0 8)) := exec_wrTxr_next.2 ⟨hl, .inr ⟨hw, rfl⟩⟩
  rw [hostStmt_write he, runAccess_decoded hd hx, State.afterAccess_live (t := s.setTxr _) hl]
  rfl

/-- The host's write of a command byte decodes to the command's instruction. -/
theorem decode_crByte {i : Instr} {c : Cmd} {k : Bool} (h : i.command = some (c, k)) :
    decode (writeWord WriteReg.cr.offset ((commandByte c k).setWidth 32)) = .ok i := by
  have hbyte : ((commandByte c k).setWidth 32).extractLsb' 0 8 = commandByte c k :=
    (BitVec.extractLsb'_setWidth_of_le (by decide)).trans BitVec.extractLsb'_eq_self
  rw [writeWord, hbyte]
  refine decode_commandWord_ok.2 ⟨crReserved_commandByte c k, ?_⟩
  rwa [cmdOfByte_commandByte, iackOfByte_commandByte]

theorem hostStmt_writeCommand {s : State} {i : Instr} {c : Cmd} {k : Bool} (hl : s.inst.live = true)
    (h : i.command = some (c, k)) : hostStmt (.write .cr (crByte c k)) s = .next ((s.writeCommand c k).afterAccess none) := by
  have hx : exec i s = .next (s.writeCommand c k) := (exec_command h s).trans (State.access_live hl _)
  rw [hostStmt_write rfl, runAccess_decoded (decode_crByte h) hx]

section
variable {s : State} {c : Cmd}

theorem State.writeCommand_passes (h : s.inst.commandFault c = none) (k : Bool) :
    s.writeCommand c k = (s.acknowledge k).issue c := by
  simp [State.writeCommand, h]

theorem State.writeCommand_faults {r : FaultReason} (h : s.inst.commandFault c = some r) (k : Bool) :
    s.writeCommand c k = s.raise r := by
  simp [State.writeCommand, h]

end

theorem Inst.commandFault_disabled {i : Inst} (h : i.en = false) (c : Cmd) : i.commandFault c = some .commandWhileDisabled := by
  simp [Inst.commandFault, h]

/-- A start+write completes with a start condition and the byte of TXR (R143, R145). -/
theorem completionStep_startWrite {s : State} {b : Byte} (hl : s.inst.live = true) (hc : s.inst.inflight = some addressCommand)
    (hb : s.inst.txr = some b) :
    ∃ u a, completionStep s = .next u ∧
      u.inst.trace = s.inst.trace ++ [if s.inst.busy = true then .rstart else .start, .tx b a] := by
  have hw : (s.startIf addressCommand).writeIf addressCommand = some (s.phaseStart.phaseWrite b) := by
    rw [State.writeIf, State.startIf_txr, hb]
    rfl
  have hcomp : s.complete addressCommand = .next (s.phaseStart.phaseWrite b).finish := State.complete_next.2 ⟨_, hw, rfl⟩
  refine ⟨_, s.phaseStart.slaveAck b, (completionStep_inflight hl hc).trans hcomp, ?_⟩
  simp [State.phaseWrite, State.phaseStart]

section
variable {s : State} {c : Call} {addr : Word} {dir : Bit} {ms : List Move}

/-- The address byte's write, of a host whose program stands there. -/
theorem Call.Transfers.step_addressByte (h : c.Transfers addr dir) (hprog : s.host.program = c.program)
    (hpc : s.host.pc = labelIndex lblAddress c.lines - 2) (hl : s.inst.live = true) (hm : s.moves = .host :: ms)
    (hw : s.inst.writing = false) : step s = .next (s.dropMove.setTxr (addrByte addr.toNat dir)).advance := by
  have hf : s.fetch = some (.write .txr (addressExpr addr dir.toNat)) := by
    rw [State.fetch, hprog, hpc]
    exact h.addressWrites.1
  obtain ⟨v, hv, hbyte⟩ := s.dropMove.eval_addressExpr addr dir
  rw [step_hostMove hl hm hf, hostStmt_writeTxr (s := s.dropMove) hl hv hw, hbyte]

/-- The address byte's write and the command's, with nothing in flight. -/
theorem Call.Transfers.runSteps_addressPhase (h : c.Transfers addr dir) (hprog : s.host.program = c.program)
    (hpc : s.host.pc = labelIndex lblAddress c.lines - 2) (hl : s.inst.live = true) (hm : s.moves = [.host, .host] ++ ms)
    (hc : s.inst.inflight = none) :
    runSteps 2 s =
      .next (((s.dropMove.setTxr (addrByte addr.toNat dir)).advance.dropMove.writeCommand addressCommand false).afterAccess none) := by
  have h1 := h.step_addressByte hprog hpc hl hm (by simp [Inst.writing, hc])
  generalize ht : (s.dropMove.setTxr (addrByte addr.toNat dir)).advance = t at h1
  have hlt : t.inst.live = true := by rw [← ht]; exact hl
  have hmt : t.moves = .host :: ms := by rw [← ht]; exact congrArg List.tail hm
  have hft : t.fetch = some (.write .cr (crByte addressCommand false)) := by
    rw [← ht, ← h.addressWrites.2, ← hprog, ← hpc]
    rfl
  have hcmd : Instr.command (.crStaWr false) = some (addressCommand, false) := rfl
  rw [runSteps_succ h1, runSteps_succ ((step_hostMove hlt hmt hft).trans (hostStmt_writeCommand (s := t.dropMove) hlt hcmd))]
  rfl

end

theorem Inst.writing_eq_false {i : Inst} (h : ∀ c, i.inflight = some c → c.wr = false) : i.writing = false := by
  unfold Inst.writing
  split
  · exact h _ ‹_›
  · rfl

/-- Settles O45: the address phase's two writes, one step each, and the completion of the command they leave in flight. -/
theorem addressByteIsAddressAndDirection : Obligations.AddressByteIsAddressAndDirection := by
  refine ⟨fun address dir h => ?_, ?_⟩
  · rw [addrByte_eq_append h]
    exact ⟨rfl, BitVec.extractLsb'_append_eq_left, BitVec.extractLsb'_append_eq_right⟩
  · intro s i addr len buf c dir ms hl hm hcall hprog hpc
    have h : c.Transfers addr dir := hcall.imp (fun h => ⟨i, len, buf, h⟩) (fun h => ⟨i, len, buf, h⟩)
    refine ⟨fun hc => ⟨_, runSteps_succ (h.step_addressByte hprog hpc hl hm (Inst.writing_eq_false hc)) 0, rfl⟩, fun hen hc => ?_,
      fun hen hc => ?_⟩
    all_goals
      have h2 := h.runSteps_addressPhase hprog hpc hl hm hc
      generalize ht : (s.dropMove.setTxr (addrByte addr.toNat dir)).advance.dropMove = t at h2
      have hinst : t.inst = { s.inst with txr := some (addrByte addr.toNat dir) } := by rw [← ht]; rfl
    · have hf : t.inst.commandFault addressCommand = none :=
        Inst.commandFault_none.2 (by simp [hinst, hen, hc, addressCommand])
      rw [State.writeCommand_passes hf] at h2
      generalize hu : ((t.acknowledge false).issue addressCommand).afterAccess none = u at h2
      have huinst : u.inst = { s.inst with txr := some (addrByte addr.toNat dir), inflight := some addressCommand } := by
        rw [← hu, State.afterAccess_inst, State.acknowledge_false, State.issue_starts t rfl, State.setInflight, hinst]
      obtain ⟨v, a, hcomp, htrace⟩ :=
        completionStep_startWrite (s := u) (b := addrByte addr.toNat dir) (by rw [huinst]; exact hl) (by rw [huinst]) (by rw [huinst])
      exact ⟨u, v, a, h2, huinst, hcomp, by rw [htrace, huinst]⟩
    · have hf := Inst.commandFault_disabled (i := t.inst) (by rw [hinst]; exact hen) addressCommand
      refine ⟨_, h2, ?_⟩
      rw [State.afterAccess_inst, State.writeCommand_faults hf, State.raise, hinst]

end Sys2Proof.Machine
end

section
/-! Proofs of the family of register accesses (40_register_access.md): what each access answers, in every case. The command forms share one
CR write (`exec_command`), so each says only which check applies and what the completion of its command does. -/

namespace Sys2Proof

/-! The words of the register accesses (R80, R87). -/

/-- A write's row of the opcode map, with its data byte or-ed in. -/
theorem encode_write {i : Instr} {k : Nat} {row : AccessWord} (hw : i.isWrite = true) (ho : i.offset = k)
    (hrow : accessWord true k 0 = row) : encode i = row ||| i.dataByte.setWidth 12 := by
  rw [← hrow, ← accessWord_eq_or, encode, hw, ho]

theorem ctrReserved_eq_false {d : Byte} (h : d.extractLsb' 0 6 = 0) : ctrReserved d = false := by
  rwa [← Bool.not_eq_true, ctrReserved_iff, not_not]

/-! Bits of the byte a read returns (R83). -/

theorem extractLsb'_byteOfBits (f : Nat → Bit) {p : Nat} (hp : p < 8) : (byteOfBits f).extractLsb' p 1 = f p := by
  apply BitVec.eq_of_getLsbD_eq
  intro i hi
  obtain rfl : i = 0 := by omega
  simpa [byteBit] using byteBit_byteOfBits f hp

/-- An admitted command that starts no bus activity has every field false: ACK comes only with RD (R88, R90). -/
theorem Cmd.eq_empty_of_not_starts {c : Cmd} (hadm : c.admitted = true) (hst : c.starts = false) : c = emptyCommand := by
  obtain ⟨sta, sto, rd, wr, ack⟩ := c
  revert sta sto rd wr ack
  decide

/-! The bus events of a command's phases. -/

/-- What the start phase adds to the trace (R143). -/
def Cmd.startEvents (c : Cmd) (busy : Bool) : List BusEvent := if c.sta then [if busy then .rstart else .start] else []

/-- What the stop phase adds to the trace (R149). -/
def Cmd.stopEvents (c : Cmd) : List BusEvent := if c.sto then [.stop] else []

end Sys2Proof

namespace Sys2Proof.Machine

/-! The prescale and the data registers (R110 to R117). -/

/-- Settles O15: the one check of a prescale write is EN. -/
theorem prescaleWrites : Obligations.PrescaleWrites := by
  intro d s hl
  refine ⟨encode_write (i := .wrPrerlo d) (k := 0) rfl rfl (by decide), encode_write (i := .wrPrerhi d) (k := 1) rfl rfl (by decide),
    fun hen => ⟨?_, ?_⟩, fun hen => ⟨?_, ?_⟩⟩
  · exact exec_wrPrerlo_next.2 ⟨hl, .inr ⟨hen, rfl⟩⟩
  · exact exec_wrPrerhi_next.2 ⟨hl, .inr ⟨hen, rfl⟩⟩
  · exact exec_wrPrerlo_next.2 ⟨hl, .inl ⟨hen, rfl⟩⟩
  · exact exec_wrPrerhi_next.2 ⟨hl, .inl ⟨hen, rfl⟩⟩

/-- From `s`, the outcome is a read that answers `{draw24, b}` and changes nothing else of the controller, the host and `moves` (R64, R68). -/
def State.Answers (s : State) (b : Byte) (o : Host.Outcome State Fault Refusal) : Prop :=
  ∃ t, o = .next t ∧ t.host.readData = s.draw24 ++ b ∧ t.inst = s.inst ∧ t.host = { s.host with readData := t.host.readData } ∧
    t.moves = s.moves

section
variable {s : State} (hl : s.inst.live = true) (r : UnwrittenReg) {held : Option Byte}
include hl

theorem State.access_readHeld_some {b : Byte} (h : held = some b) : s.Answers b (s.access (s.readHeld r held)) := by
  subst h
  exact ⟨s.answer b, State.access_live hl _, rfl, rfl, rfl, rfl⟩

theorem State.access_readHeld_none (h : held = none) : s.access (s.readHeld r held) = .next (s.raise (.unwrittenRead r)) := by
  subst h
  exact State.access_live hl _

end

/-- Settles O16: a prescale read looks at the half it names, and at nothing else. -/
theorem prescaleReads : Obligations.PrescaleReads := by
  refine ⟨by decide, fun s hl => ⟨fun b hb => ?_, fun b hb => ?_, fun hn => ?_, fun hn => ?_⟩⟩
  · exact State.access_readHeld_some hl .prerlo hb
  · exact State.access_readHeld_some hl .prerhi hb
  · exact State.access_readHeld_none hl .prerlo hn
  · exact State.access_readHeld_none hl .prerhi hn

theorem State.rxrRead_reading {s : State} {c : Cmd} (hc : s.inst.inflight = some c) (hrd : c.rd = true) :
    s.rxrRead = some (Config.drawByte s.draws 3) := by
  simp [State.rxrRead, hc, hrd]

theorem State.rxrRead_held {s : State} (h : ∀ c, s.inst.inflight = some c → c.rd = false) : s.rxrRead = s.inst.rxr := by
  unfold State.rxrRead
  split
  · rw [h _ ‹_›]
    rfl
  · rfl

/-- Settles O19: `rxrRead` is a draw while a read is in flight, else what RXR holds. -/
theorem receiveRead : Obligations.ReceiveRead := by
  refine ⟨by decide, fun s hl => ⟨fun c hc hrd => ?_, fun hc => ⟨fun b hb => ?_, fun hn => ?_⟩⟩⟩
  · exact State.access_readHeld_some hl .rxr (State.rxrRead_reading hc hrd)
  · exact State.access_readHeld_some hl .rxr ((State.rxrRead_held hc).trans hb)
  · exact State.access_readHeld_none hl .rxr ((State.rxrRead_held hc).trans hn)

theorem Inst.writing_eq_true {i : Inst} {c : Cmd} (hc : i.inflight = some c) (hwr : c.wr = true) : i.writing = true := by
  simp [Inst.writing, hc, hwr]

/-- Settles O20: the one check of a TXR write is a command with WR in flight. -/
theorem transmitWrite : Obligations.TransmitWrite := by
  intro d s hl
  refine ⟨encode_write (i := .wrTxr d) (k := 3) rfl rfl (by decide), fun hc => ?_, fun c hc hwr => ?_⟩
  · exact exec_wrTxr_next.2 ⟨hl, .inr ⟨Inst.writing_eq_false hc, rfl⟩⟩
  · exact exec_wrTxr_next.2 ⟨hl, .inl ⟨Inst.writing_eq_true hc hwr, rfl⟩⟩

/-! The control register (R114, R115). -/

theorem Inst.ctrByte_eq (i : Inst) : i.ctrByte = BitVec.ofBool i.en ++ (BitVec.ofBool i.ien ++ 0#6) := by
  unfold Inst.ctrByte
  cases i.en <;> cases i.ien <;> rfl

/-- Settles O17: the byte of `ctrByte_eq`, answered with no check. -/
theorem controlRead : Obligations.ControlRead := by
  refine ⟨by decide, fun s hl => ⟨s.answer s.inst.ctrByte, State.access_live hl _, rfl, rfl, rfl, ?_⟩⟩
  rw [← Inst.ctrByte_eq]
  rfl

/-- The check of R115: EN goes from 1 to 0 with a command in flight or the bus open. -/
theorem Inst.disablesActive_iff {i : Inst} {d : Byte} :
    (i.en && !ctrEnOf d && i.active) = true ↔
      i.en = true ∧ d.getLsbD 7 = false ∧ (i.inflight ≠ none ∨ i.busy = true) := by
  have hen : ctrEnOf d = d.getLsbD 7 := rfl
  simp [hen, Inst.active, Option.isSome_iff_ne_none, and_assoc]

/-- Settles O18: reserved bits are refused first; else `disablesActive_iff` says when the write faults. -/
theorem controlWrite : Obligations.ControlWrite := by
  refine ⟨fun d => encode_write (i := .wrCtr d) (k := 2) rfl rfl (by decide), fun d s hl => ⟨fun hres => ?_, ?_, ?_⟩⟩
  · exact (exec_wrCtr_reserved (ctrReserved_iff.2 hres)).2 ⟨hl, rfl⟩
  · intro hres hen hd hact
    exact (exec_wrCtr_next (ctrReserved_eq_false hres)).2 ⟨hl, .inl ⟨Inst.disablesActive_iff.2 ⟨hen, hd, hact⟩, rfl⟩⟩
  · intro hres hcase
    refine (exec_wrCtr_next (ctrReserved_eq_false hres)).2 ⟨hl, .inr ⟨?_, rfl⟩⟩
    rw [← Bool.not_eq_true, Inst.disablesActive_iff]
    rintro ⟨hen, hd, hact⟩
    obtain hoff | hon | ⟨hidle, hbusy⟩ := hcase
    · exact absurd (hen.symm.trans hoff) (by decide)
    · exact absurd (hon.symm.trans hd) (by decide)
    · simp [hidle, hbusy] at hact

/-! The status register (R118). -/

/-- The bits of the word a read of SR returns. -/
theorem State.status_bit (s : State) {p : Nat} (hp : p < 8) :
    (s.answer s.srByte).host.readData.extractLsb' p 1 =
      if p = 7 then s.rxackValue
      else if p = 6 then s.busyValue
      else if p = 1 then s.tipValue
      else if p = 0 then BitVec.ofBool s.inst.iflag
      else Config.drawBit s.draws p :=
  (BitVec.extractLsb'_append_eq_of_add_le (show p + 1 ≤ 8 by omega)).trans (extractLsb'_byteOfBits _ hp)

section
variable {s : State} {c : Cmd}

theorem State.flags_idle (hc : s.inst.inflight = none) :
    s.tipValue = 0 ∧ s.busyValue = BitVec.ofBool s.inst.busy ∧ (∀ a, s.inst.rxack = some a → s.rxackValue = a) ∧
      (s.inst.rxack = none → s.rxackValue = Config.drawBit s.draws 7) := by
  refine ⟨?_, ?_, fun a ha => ?_, fun hn => ?_⟩
  · simp [State.tipValue, hc]
  · simp [State.busyValue, hc]
  · simp [State.rxackValue, hc, ha]
  · simp [State.rxackValue, hc, hn, Config.layout]

theorem State.tipValue_inFlight (hc : s.inst.inflight = some c) :
    (c.rd = true ∨ c.wr = true → s.tipValue = 1) ∧
      (c.rd = false → c.wr = false → s.tipValue = Config.drawBit s.draws 1) := by
  refine ⟨fun hbyte => ?_, fun hrd hwr => ?_⟩
  · simp [State.tipValue, hc, hbyte]
  · simp [State.tipValue, hc, hrd, hwr, Config.layout]

theorem State.busyValue_inFlight (hc : s.inst.inflight = some c) :
    (c.sta = true ∨ c.sto = true → s.busyValue = Config.drawBit s.draws 6) ∧
      (c.sta = false → c.sto = false → s.busyValue = BitVec.ofBool s.inst.busy) := by
  refine ⟨fun hchange => ?_, fun hsta hsto => ?_⟩
  · simp [State.busyValue, hc, hchange, Config.layout]
  · simp [State.busyValue, hc, hsta, hsto]

theorem State.rxackValue_inFlight (hc : s.inst.inflight = some c) : s.rxackValue = Config.drawBit s.draws 7 := by
  simp [State.rxackValue, hc, Config.layout]

end

/-- Settles O21: `status_bit` says which flag each bit is, and the flags' lemmas what it reads as. -/
theorem statusRead : Obligations.StatusRead := by
  refine ⟨by decide, fun s hl => ⟨s.answer s.srByte, State.access_live hl _, rfl, rfl, rfl, BitVec.extractLsb'_append_eq_left,
    s.status_bit (by decide), fun p h2 h5 => ?_, fun hc => ?_, fun c hc => ?_⟩⟩
  · rw [s.status_bit (by omega), if_neg (by omega), if_neg (by omega), if_neg (by omega), if_neg (by omega)]
  · rw [s.status_bit (p := 1) (by decide), s.status_bit (p := 6) (by decide), s.status_bit (p := 7) (by decide)]
    exact State.flags_idle hc
  · rw [s.status_bit (p := 1) (by decide), s.status_bit (p := 6) (by decide), s.status_bit (p := 7) (by decide)]
    obtain ⟨htransfer, hstop⟩ := State.tipValue_inFlight hc
    obtain ⟨hchange, hkeep⟩ := State.busyValue_inFlight hc
    exact ⟨State.rxackValue_inFlight hc, htransfer, hstop, hchange, hkeep⟩

/-! The checks of a CR write, in their order (R119). -/

section
variable {i : Inst} {c : Cmd}

theorem Inst.commandFault_inFlight (hen : i.en = true) (hc : i.inflight ≠ none) : i.commandFault c = some .commandWhileInFlight := by
  simp [Inst.commandFault, hen, Option.isSome_iff_ne_none.2 hc]

theorem Inst.commandFault_withoutStart (hen : i.en = true) (hc : i.inflight = none) (hbyte : c.rd = true ∨ c.wr = true)
    (hsta : c.sta = false) (hbusy : i.busy = false) : i.commandFault c = some .byteWithoutStart := by
  simp [Inst.commandFault, hen, hc, hbyte, hsta, hbusy]

theorem Inst.commandFault_transmitEmpty (hen : i.en = true) (hc : i.inflight = none)
    (hopen : c.rd = true ∨ c.wr = true → c.sta = true ∨ i.busy = true) (hwr : c.wr = true) (htxr : i.txr = none) :
    i.commandFault c = some .unwrittenTxr := by
  obtain hsta | hbusy := hopen (.inr hwr)
  · simp [Inst.commandFault, hen, hc, hwr, hsta, htxr]
  · simp [Inst.commandFault, hen, hc, hwr, hbusy, htxr]

end

section
variable {i : Instr} {c : Cmd} {k : Bool} {s : State} (hcmd : i.command = some (c, k)) (hl : s.inst.live = true)
include hcmd hl

theorem exec_command_faults {r : FaultReason} (hf : s.inst.commandFault c = some r) : exec i s = .next (s.raise r) := by
  rw [exec_command hcmd, State.access_live hl, State.writeCommand_faults hf]

theorem exec_command_passes (hf : s.inst.commandFault c = none) : exec i s = .next ((s.acknowledge k).issue c) := by
  rw [exec_command hcmd, State.access_live hl, State.writeCommand_passes hf]

end

theorem Cmd.starts_iff {c : Cmd} : c.starts = true ↔ c.sta = true ∨ c.sto = true ∨ c.rd = true ∨ c.wr = true := by
  simp [Cmd.starts, or_assoc]

/-- The effects of a CR write, as R119 writes them. -/
theorem State.issue_acknowledge_if (s : State) (c : Cmd) (k : Bool) :
    (s.acknowledge k).issue c =
      { s with
        inst :=
          { s.inst with
            iflag := if k = true then false else s.inst.iflag
            inflight :=
              if c.sta = true ∨ c.sto = true ∨ c.rd = true ∨ c.wr = true then some c else s.inst.inflight } } := by
  simp only [State.issue_acknowledge, Cmd.starts_iff]
  cases k <;> simp

/-- Settles O22: one lemma on `commandFault` for each check, in R119's order; past the checks, the effects. -/
theorem commandWriteChecksInOrder : Obligations.CommandWriteChecksInOrder := by
  refine ⟨fun i c k s hcmd hl => ?_, fun d r dest s hd => ⟨s.refuse, runAccess_rejected hd dest, rfl⟩⟩
  rw [← State.issue_acknowledge_if]
  split_ifs with hdis hfly hclosed hempty
  · exact exec_command_faults hcmd hl (Inst.commandFault_disabled hdis c)
  all_goals have hen : s.inst.en = true := by simpa using hdis
  · exact exec_command_faults hcmd hl (Inst.commandFault_inFlight hen hfly)
  all_goals have hidle : s.inst.inflight = none := not_not.1 hfly
  · obtain ⟨hbyte, hsta, hbusy⟩ := hclosed
    exact exec_command_faults hcmd hl (Inst.commandFault_withoutStart hen hidle hbyte hsta hbusy)
  all_goals
    have hopen : c.rd = true ∨ c.wr = true → c.sta = true ∨ s.inst.busy = true := fun hbyte => by
      by_contra hneither
      simp only [not_or, Bool.not_eq_true] at hneither
      exact hclosed ⟨hbyte, hneither⟩
  · obtain ⟨hwr, htxr⟩ := hempty
    exact exec_command_faults hcmd hl (Inst.commandFault_transmitEmpty hen hidle hopen hwr htxr)
  · refine exec_command_passes hcmd hl (Inst.commandFault_none.2 ⟨hen, hidle, hopen, fun hwr => ?_⟩)
    exact Option.isSome_iff_ne_none.2 fun htxr => hempty ⟨hwr, htxr⟩

/-- Settles O41: a CR write records a fault, or makes the two effects of `issue_acknowledge`. -/
theorem commandWriteFrame : Obligations.CommandWriteFrame := by
  intro i c k s t hcmd h
  rw [exec_command hcmd, State.access_next] at h
  obtain ⟨-, rfl⟩ := h
  obtain ⟨r, -, e⟩ | ⟨-, e⟩ := State.writeCommand_cases s c k
  · rw [e]
    exact ⟨rfl, fun _ => ⟨rfl, rfl⟩⟩
  · rw [e, State.issue_acknowledge]
    exact ⟨rfl, fun hne => absurd rfl hne⟩

/-! CR_NOP and CR_IACK (R120, R121). -/

theorem Inst.commandFault_empty {i : Inst} (hen : i.en = true) (hc : i.inflight = none) : i.commandFault emptyCommand = none :=
  Inst.commandFault_none.2 ⟨hen, hc, by simp [emptyCommand], by simp [emptyCommand]⟩

/-- A machine whose core is enabled and idle, with IF set, the bus open and a byte in TXR: every command passes the checks of R119, and
every effect of a CR write shows. -/
def enabledOpenCore : State :=
  { State.reset with inst := { Inst.reset with en := true, busy := true, iflag := true, txr := some 0 } }

theorem enabledOpenCore_passes (c : Cmd) : enabledOpenCore.inst.commandFault c = none :=
  Inst.commandFault_none.2 ⟨rfl, rfl, fun _ => .inr rfl, fun _ => rfl⟩

/-- A CR write that changes nothing there is CR_NOP. -/
theorem command_of_enabledOpenCore_kept {i : Instr} {c : Cmd} {k : Bool} (hcmd : i.command = some (c, k))
    (h : exec i enabledOpenCore = .next enabledOpenCore) : c = emptyCommand ∧ k = false := by
  rw [exec_command_passes hcmd rfl (enabledOpenCore_passes c), State.issue_acknowledge, Host.Outcome.next.injEq] at h
  have hif : (true && !k) = true := congrArg (·.inst.iflag) h
  have hfly : (if c.starts = true then some c else none) = none := congrArg (·.inst.inflight) h
  have hst : c.starts = false := by simpa using hfly
  exact ⟨Cmd.eq_empty_of_not_starts (command_admitted hcmd) hst, by simpa using hif⟩

/-- Settles O23: both forms carry the empty command, which only EN and a command in flight can fault; `enabledOpenCore` shows every other byte's
effect. -/
theorem nopAndInterruptAcknowledge : Obligations.NopAndInterruptAcknowledge := by
  have hnop : Instr.command .crNop = some (emptyCommand, false) := rfl
  have hiack : Instr.command .crIack = some (emptyCommand, true) := rfl
  refine ⟨by decide, fun d i hd hkept => ?_, fun s hl => ⟨fun hen hc => ?_, fun hen => ?_, fun hen hc => ?_⟩⟩
  · obtain ⟨hr, hcmd⟩ := decode_commandWord_ok.1 hd
    obtain ⟨hc, hk⟩ := command_of_enabledOpenCore_kept hcmd (hkept enabledOpenCore rfl rfl rfl)
    rw [← commandByte_cmdOfByte hr, hc, hk]
    decide
  · have hf := Inst.commandFault_empty hen hc
    exact ⟨exec_command_passes hnop hl hf, s.setIf false, exec_command_passes hiack hl hf, rfl, Bool.and_false _⟩
  · have hf := Inst.commandFault_disabled hen emptyCommand
    exact ⟨exec_command_faults hnop hl hf, exec_command_faults hiack hl hf⟩
  · have hf := Inst.commandFault_inFlight (c := emptyCommand) hen hc
    exact ⟨exec_command_faults hnop hl hf, exec_command_faults hiack hl hf⟩

/-! The forms that start bus activity, and their completions (R122 to R131, R141 to R151). -/

/-- The state with command `c` put in flight, and IF cleared if `k` (R119). -/
def State.withCommand (s : State) (c : Cmd) (k : Bool) : State :=
  { s with inst := { s.inst with iflag := s.inst.iflag && !k, inflight := some c } }

theorem State.issue_acknowledge_starts {c : Cmd} (s : State) (k : Bool) (hst : c.starts = true) :
    (s.acknowledge k).issue c = s.withCommand c k := by
  rw [State.issue_acknowledge, if_pos hst]
  rfl

theorem completionStep_withCommand {s : State} (hl : s.inst.live = true) (c : Cmd) (k : Bool) :
    completionStep (s.withCommand c k) = (s.withCommand c k).complete c :=
  completionStep_inflight (s := s.withCommand c k) hl rfl

/-- The completion of a command answers a next state where its write phase has a byte (R145). -/
theorem State.complete_answers {s : State} {c : Cmd} (htxr : c.wr = true → s.inst.txr.isSome = true) : ∃ t, s.complete c = .next t := by
  have hw : ∃ u, (s.startIf c).writeIf c = some u := by
    unfold State.writeIf
    cases hwr : c.wr with
    | false => exact ⟨_, rfl⟩
    | true =>
      obtain ⟨b, hb⟩ := Option.isSome_iff_exists.1 (htxr hwr)
      rw [State.startIf_txr, hb]
      exact ⟨_, rfl⟩
  obtain ⟨u, hu⟩ := hw
  exact ⟨_, State.complete_next.2 ⟨u, hu, rfl⟩⟩

/-- Settles O28: the checks do not look at IACK; past them it decides IF alone, and the command's completion sets IF (R151). -/
theorem acknowledgeBitIsIndependent : Obligations.AcknowledgeBitIsIndependent := by
  intro i j c s hi hj hl
  cases hf : s.inst.commandFault c with
  | some r =>
    exact ⟨_, _, exec_command_faults hi hl hf, exec_command_faults hj hl hf, fun _ => rfl, fun hsame => absurd hsame (by simp)⟩
  | none =>
    refine ⟨_, _, exec_command_passes hi hl hf, exec_command_passes hj hl hf, fun hne => absurd ?_ hne, fun _ => ⟨?_, fun hst => ?_⟩⟩
    · rw [State.issue_acknowledge]
    · rw [State.issue_acknowledge, State.issue_acknowledge, Bool.not_true, Bool.and_false]
    · obtain ⟨-, -, -, htxr⟩ := Inst.commandFault_none.1 hf
      obtain ⟨v, hv⟩ := State.complete_answers (s := s.withCommand c true) htxr
      rw [State.issue_acknowledge_starts s true hst]
      exact ⟨rfl, v, (completionStep_withCommand hl c true).trans hv, State.complete_iflag hv⟩

theorem State.startIf_trace_eq (s : State) (c : Cmd) :
    (s.startIf c).inst.trace = s.inst.trace ++ c.startEvents s.inst.busy := by
  unfold State.startIf Cmd.startEvents
  cases c.sta
  · exact (List.append_nil _).symm
  · rfl

theorem State.stopIf_trace_eq (s : State) (c : Cmd) : (s.stopIf c).inst.trace = s.inst.trace ++ c.stopEvents := by
  unfold State.stopIf Cmd.stopEvents
  cases c.sto
  · exact (List.append_nil _).symm
  · rfl

theorem State.stopIf_received (s : State) (c : Cmd) :
    (s.stopIf c).inst.rxack = s.inst.rxack ∧ (s.stopIf c).inst.rxr = s.inst.rxr := by
  unfold State.stopIf
  cases c.sto <;> exact ⟨rfl, rfl⟩

theorem State.readIf_no_read {c : Cmd} (s : State) (hrd : c.rd = false) : s.readIf c = s := by
  simp [State.readIf, hrd]

theorem State.readIf_read {c : Cmd} (s : State) (hrd : c.rd = true) : s.readIf c = s.phaseRead c.ack := by
  simp [State.readIf, hrd]

/-- A write command completes with its start, the byte of TXR, the slave's level in RxACK, and its stop (R143, R145, R146, R149). -/
theorem State.complete_transmits {s : State} {c : Cmd} {b : Byte} (hwr : c.wr = true) (hrd : c.rd = false) (hb : s.inst.txr = some b) :
    ∃ u a, s.complete c = .next u ∧
      u.inst.trace = s.inst.trace ++ (c.startEvents s.inst.busy ++ (.tx b a :: c.stopEvents)) ∧ u.inst.rxack = some a := by
  have hw : (s.startIf c).writeIf c = some ((s.startIf c).phaseWrite b) := by
    simp [State.writeIf, hwr, State.startIf_txr, hb]
  refine ⟨_, (s.startIf c).slaveAck b, State.complete_next.2 ⟨_, hw, rfl⟩, ?_, ?_⟩ <;> rw [State.readIf_no_read _ hrd]
  · rw [State.finish_trace, State.stopIf_trace_eq]
    simp [State.phaseWrite, State.startIf_trace_eq]
  · exact (State.stopIf_received _ c).1

/-- A read command without a start completes with the byte received in RXR, the master's answer, and its stop (R147, R149). -/
theorem State.complete_receives {s : State} {c : Cmd} (hsta : c.sta = false) (hwr : c.wr = false) (hrd : c.rd = true) :
    ∃ u b, s.complete c = .next u ∧
      u.inst.trace = s.inst.trace ++ (.rx b (masterAnswer c.ack) :: c.stopEvents) ∧ u.inst.rxr = some b := by
  have hw : (s.startIf c).writeIf c = some s := by simp [State.writeIf, State.startIf, hwr, hsta]
  refine ⟨_, s.slaveByte, State.complete_next.2 ⟨_, hw, rfl⟩, ?_, ?_⟩ <;> rw [State.readIf_read _ hrd]
  · rw [State.finish_trace, State.stopIf_trace_eq]
    simp [State.phaseRead]
  · exact (State.stopIf_received _ c).2

section
variable {i : Instr} {c : Cmd} {k : Bool} {s : State} (hcmd : i.command = some (c, k)) (hl : s.inst.live = true)
  (hf : s.inst.commandFault c = none)
include hcmd hl hf

theorem exec_command_issues (hst : c.starts = true) : exec i s = .next (s.withCommand c k) := by
  rw [exec_command_passes hcmd hl hf, State.issue_acknowledge_starts s k hst]

/-- A write form at the write and at its completion; `isOpen` is whether the bus is open then. -/
theorem exec_transmits {b : Byte} {isOpen : Bool} (hwr : c.wr = true) (hrd : c.rd = false) (hb : s.inst.txr = some b)
    (hopen : (!c.sto && (c.sta || s.inst.busy)) = isOpen) :
    ∃ t u a, exec i s = .next t ∧ t = s.withCommand c k ∧ completionStep t = .next u ∧
      u.inst.trace = s.inst.trace ++ (c.startEvents s.inst.busy ++ (.tx b a :: c.stopEvents)) ∧ u.inst.rxack = some a ∧
      u.inst.busy = isOpen := by
  obtain ⟨u, a, hu, htrace, hack⟩ := State.complete_transmits (s := s.withCommand c k) hwr hrd hb
  exact ⟨_, u, a, exec_command_issues hcmd hl hf (Cmd.starts_iff.2 (.inr (.inr (.inr hwr)))), rfl,
    (completionStep_withCommand hl c k).trans hu, htrace, hack, (State.complete_busy hu).trans hopen⟩

/-- A read form at the write and at its completion; `isOpen` is whether the bus is open then. -/
theorem exec_receives {m : Bit} {isOpen : Bool} (hsta : c.sta = false) (hwr : c.wr = false) (hrd : c.rd = true)
    (hm : masterAnswer c.ack = m) (hopen : (!c.sto && (c.sta || s.inst.busy)) = isOpen) :
    ∃ t u b, exec i s = .next t ∧ t = s.withCommand c k ∧ completionStep t = .next u ∧
      u.inst.trace = s.inst.trace ++ (.rx b m :: c.stopEvents) ∧ u.inst.rxr = some b ∧ u.inst.busy = isOpen := by
  obtain ⟨u, b, hu, htrace, hrxr⟩ := State.complete_receives (s := s.withCommand c k) hsta hwr hrd
  exact ⟨_, u, b, exec_command_issues hcmd hl hf (Cmd.starts_iff.2 (.inr (.inr (.inl hrd)))), rfl,
    (completionStep_withCommand hl c k).trans hu, hm ▸ htrace, hrxr, (State.complete_busy hu).trans hopen⟩

end

/-- A stop alone completes with STOP on an idle bus, whatever it was before (R149, R150). -/
theorem State.complete_stop {s : State} {c : Cmd} (hsta : c.sta = false) (hwr : c.wr = false) (hrd : c.rd = false) (hsto : c.sto = true) :
    s.complete c = .next s.phaseStop.finish := by
  simp [State.complete, State.startIf, State.writeIf, State.readIf, State.stopIf, hsta, hwr, hrd, hsto]

/-- Settles O24: a stop alone passes every check of an enabled idle core, and completes with its stop phase. -/
theorem stopCommandIssues : Obligations.StopCommandIssues := by
  intro k s hl hen hc
  have hf : s.inst.commandFault ⟨false, true, false, false, false⟩ = none :=
    Inst.commandFault_none.2 ⟨hen, hc, by simp, by simp⟩
  exact ⟨_, _, exec_command_issues rfl hl hf rfl, rfl,
    (completionStep_withCommand hl _ k).trans (State.complete_stop rfl rfl rfl rfl), rfl, rfl, rfl, rfl, hen⟩

/-- Settles O25: both forms pass the checks in an open transaction with a byte in TXR, and `exec_transmits` says what they do. -/
theorem writeCommandsIssue : Obligations.WriteCommandsIssue := by
  intro k b s hl hen hc hbusy hb
  have hf : ∀ c : Cmd, s.inst.commandFault c = none := fun c =>
    Inst.commandFault_none.2 ⟨hen, hc, fun _ => .inr hbusy, fun _ => by simp [hb]⟩
  exact ⟨exec_transmits (i := .crWr k) rfl hl (hf _) rfl rfl hb hbusy, exec_transmits (i := .crWrSto k) rfl hl (hf _) rfl rfl hb rfl⟩

/-- Settles O26: a form with STA needs no open bus, and a byte in TXR passes the last check; then `exec_transmits`, on either bus. -/
theorem startCommandsIssue : Obligations.StartCommandsIssue := by
  intro k b s hl hen hc hb
  have hf : ∀ c : Cmd, c.sta = true → s.inst.commandFault c = none := fun c hsta =>
    Inst.commandFault_none.2 ⟨hen, hc, fun _ => .inl hsta, fun _ => by simp [hb]⟩
  exact ⟨exec_transmits (i := .crStaWr k) rfl hl (hf _ rfl) rfl rfl hb rfl,
    exec_transmits (i := .crStaWrSto k) rfl hl (hf _ rfl) rfl rfl hb rfl⟩

/-- Settles O27: a read form asks for an open transaction and no byte in TXR; then `exec_receives`, with each form's answer and stop. -/
theorem readCommandsIssue : Obligations.ReadCommandsIssue := by
  intro k s hl hen hc hbusy
  have hf : ∀ c : Cmd, c.wr = false → s.inst.commandFault c = none := fun c hwr =>
    Inst.commandFault_none.2 ⟨hen, hc, fun _ => .inr hbusy, by simp [hwr]⟩
  exact ⟨exec_receives (i := .crRd k) rfl hl (hf _ rfl) rfl rfl rfl rfl hbusy,
    exec_receives (i := .crRdAck k) rfl hl (hf _ rfl) rfl rfl rfl rfl hbusy,
    exec_receives (i := .crRdSto k) rfl hl (hf _ rfl) rfl rfl rfl rfl rfl,
    exec_receives (i := .crRdAckSto k) rfl hl (hf _ rfl) rfl rfl rfl rfl rfl⟩

end Sys2Proof.Machine
end

section
/-! Proofs of the family of the controller's bus commands (41_bus_commands.md): what one completion adds to the trace, takes from the
slaves' inputs and leaves unchanged, and that nothing else touches the bus. -/

namespace Sys2Proof.Machine

/-! A start and a stop carry no byte: they leave RXR, RxACK and the slaves' inputs. -/

theorem State.startIf_received (s : State) (c : Cmd) :
    (s.startIf c).inst.rxack = s.inst.rxack ∧ (s.startIf c).inst.rxr = s.inst.rxr := by
  unfold State.startIf
  cases c.sta <;> exact ⟨rfl, rfl⟩

theorem State.startIf_slaves (s : State) (c : Cmd) :
    (s.startIf c).slaveAcks = s.slaveAcks ∧ (s.startIf c).slaveBytes = s.slaveBytes := by
  unfold State.startIf
  cases c.sta <;> exact ⟨rfl, rfl⟩

theorem State.stopIf_slaves (s : State) (c : Cmd) :
    (s.stopIf c).slaveAcks = s.slaveAcks ∧ (s.stopIf c).slaveBytes = s.slaveBytes := by
  unfold State.stopIf
  cases c.sto <;> exact ⟨rfl, rfl⟩

/-! One equation for each kind of command: a write, a read, and no byte at all (R141). -/

section
variable {s : State} {c : Cmd}

theorem State.writeIf_no_write (hwr : c.wr = false) : s.writeIf c = some s := by
  simp [State.writeIf, hwr]

theorem State.complete_write {b : Byte} (hwr : c.wr = true) (hrd : c.rd = false) (hb : s.inst.txr = some b) :
    s.complete c = .next (((s.startIf c).phaseWrite b).stopIf c).finish := by
  have hw : (s.startIf c).writeIf c = some ((s.startIf c).phaseWrite b) := by
    simp [State.writeIf, hwr, State.startIf_txr, hb]
  exact State.complete_next.2 ⟨_, hw, by rw [State.readIf_no_read _ hrd]⟩

theorem State.complete_read (hwr : c.wr = false) (hrd : c.rd = true) :
    s.complete c = .next (((s.startIf c).phaseRead c.ack).stopIf c).finish :=
  State.complete_next.2 ⟨_, State.writeIf_no_write hwr, by rw [State.readIf_read _ hrd]⟩

theorem State.complete_noByte (hwr : c.wr = false) (hrd : c.rd = false) :
    s.complete c = .next ((s.startIf c).stopIf c).finish :=
  State.complete_next.2 ⟨_, State.writeIf_no_write hwr, by rw [State.readIf_no_read _ hrd]⟩

end

/-- A byte phase that leads from the start phase to `m` and adds `ev` to the trace stands between the events of start and stop (R141). -/
theorem State.finish_stopIf_trace {s m : State} {c : Cmd} {ev : List BusEvent}
    (hm : m.inst.trace = (s.startIf c).inst.trace ++ ev) :
    (m.stopIf c).finish.inst.trace = s.inst.trace ++ c.startEvents s.inst.busy ++ ev ++ c.stopEvents := by
  rw [State.finish_trace, State.stopIf_trace_eq, hm, State.startIf_trace_eq]

/-- The byte phase stands in the trace between the start and the stop, and decides RXR and RxACK (R141, R145 to R148). -/
theorem State.complete_byte {s : State} {c : Cmd} (hone : (c.rd && c.wr) = false) (htxr : c.wr = true → s.inst.txr.isSome = true) :
    ∃ t ev, s.complete c = .next t ∧
      t.inst.trace = s.inst.trace ++ c.startEvents s.inst.busy ++ ev ++ c.stopEvents ∧
      (c.wr = true → ∃ b a, s.inst.txr = some b ∧ ev = [.tx b a] ∧ t.inst.rxack = some a ∧ t.inst.rxr = s.inst.rxr) ∧
      (c.rd = true → ∃ b, ev = [.rx b (masterAnswer c.ack)] ∧ t.inst.rxr = some b ∧ t.inst.rxack.isSome = true) ∧
      (c.rd = false → c.wr = false → ev = [] ∧ t.inst.rxack = s.inst.rxack ∧ t.inst.rxr = s.inst.rxr) := by
  obtain ⟨hack, hrxr⟩ := s.startIf_received c
  cases hwr : c.wr with
  | true =>
    have hrd : c.rd = false := by simpa [hwr] using hone
    obtain ⟨b, hb⟩ := Option.isSome_iff_exists.1 (htxr hwr)
    obtain ⟨hack', hrxr'⟩ := ((s.startIf c).phaseWrite b).stopIf_received c
    exact ⟨_, _, State.complete_write hwr hrd hb, State.finish_stopIf_trace rfl,
      fun _ => ⟨b, _, hb, rfl, hack', hrxr'.trans hrxr⟩, by simp [hrd], nofun⟩
  | false =>
    cases hrd : c.rd with
    | true =>
      obtain ⟨hack', hrxr'⟩ := ((s.startIf c).phaseRead c.ack).stopIf_received c
      exact ⟨_, _, State.complete_read hwr hrd, State.finish_stopIf_trace rfl,
        nofun, fun _ => ⟨_, rfl, hrxr', Option.isSome_iff_exists.2 ⟨_, hack'⟩⟩, nofun⟩
    | false =>
      obtain ⟨hack', hrxr'⟩ := (s.startIf c).stopIf_received c
      exact ⟨_, [], State.complete_noByte hwr hrd, State.finish_stopIf_trace (List.append_nil _).symm,
        nofun, nofun, fun _ _ => ⟨rfl, hack'.trans hack, hrxr'.trans hrxr⟩⟩

/-- Nothing is in flight once a command is complete (R141). -/
theorem State.complete_inflight {s t : State} {c : Cmd} (h : s.complete c = .next t) : t.inst.inflight = none := by
  obtain ⟨u, -, rfl⟩ := State.complete_frame h
  rfl

/-- What no phase of a completion touches (R141, R155). -/
theorem State.complete_unchanged {s t : State} {c : Cmd} (h : s.complete c = .next t) :
    t.inst.prerlo = s.inst.prerlo ∧ t.inst.prerhi = s.inst.prerhi ∧ t.inst.en = s.inst.en ∧ t.inst.ien = s.inst.ien ∧
      t.inst.txr = s.inst.txr ∧ t.inst.faults = s.inst.faults ∧ t.inst.refused = s.inst.refused ∧ t.host = s.host ∧
      t.moves = s.moves := by
  obtain ⟨u, ⟨hinst, hhost, hmoves, -⟩, rfl⟩ := State.complete_frame h
  have hfinish : u.finish.inst = { u.inst with iflag := true, inflight := none } := rfl
  rw [hfinish, hinst]
  exact ⟨rfl, rfl, rfl, rfl, rfl, rfl, rfl, hhost, hmoves⟩

/-- Settles O29: `complete_byte` says what the phases do in their order; Busy, IF, the command in flight and the frame have a lemma each. -/
theorem completionPerformsThePhases : Obligations.CompletionPerformsThePhases := by
  refine ⟨fun s t hl h => ?_, fun s hl hc => ?_, fun s c hl hc hone htxr => ?_⟩
  · rw [completionStep, State.whileLive_quiescent hl] at h
    cases h
  · rw [completionStep, State.whileLive_live hl, hc]
  · obtain ⟨t, ev, h, htrace, hwrite, hread, hnone⟩ := State.complete_byte hone htxr
    have hbusy : t.inst.busy = if c.sto = true then false else c.sta || s.inst.busy := by
      rw [State.complete_busy h]
      cases c.sto <;> rfl
    exact ⟨t, ev, (completionStep_inflight hl hc).trans h, htrace, hwrite, hread, hnone, hbusy, State.complete_iflag h,
      State.complete_inflight h, State.complete_unchanged h⟩

/-! The slaves' answers (R152). -/

theorem State.slaveAck_placed {s : State} {a : Bit} {rest : List Bit} (h : s.slaveAcks = a :: rest) (b : Byte) :
    s.slaveAck b = a := by
  rw [State.slaveAck, h]

theorem State.slaveByte_placed {s : State} {b : Byte} {rest : List Byte} (h : s.slaveBytes = b :: rest) : s.slaveByte = b := by
  rw [State.slaveByte, h]

/-- Settles O30: the start phase leaves both lists, the byte phase takes the head of one, and the stop phase leaves what it took. -/
theorem placedAnswersAreTaken : Obligations.PlacedAnswersAreTaken := by
  refine ⟨fun s c b a rest hl hc hwr hrd hb hacks => ?_, fun s c b rest hl hc hrd hwr hbytes => ?_⟩
  · obtain ⟨hstartAcks, hstartBytes⟩ := s.startIf_slaves c
    have ha : (s.startIf c).slaveAck b = a := State.slaveAck_placed (hstartAcks.trans hacks) b
    obtain ⟨hack, -⟩ := ((s.startIf c).phaseWrite b).stopIf_received c
    obtain ⟨hstopAcks, hstopBytes⟩ := ((s.startIf c).phaseWrite b).stopIf_slaves c
    refine ⟨_, (completionStep_inflight hl hc).trans (State.complete_write hwr hrd hb), ?_, ?_, ?_, ?_⟩
    · rw [State.finish_stopIf_trace (ev := [.tx b a]) (by rw [← ha]; rfl)]
      simp
    · exact hack.trans (congrArg some ha)
    · exact hstopAcks.trans (congrArg List.tail (hstartAcks.trans hacks))
    · exact hstopBytes.trans hstartBytes
  · obtain ⟨hstartAcks, hstartBytes⟩ := s.startIf_slaves c
    have hb : (s.startIf c).slaveByte = b := State.slaveByte_placed (hstartBytes.trans hbytes)
    obtain ⟨-, hrxr⟩ := ((s.startIf c).phaseRead c.ack).stopIf_received c
    obtain ⟨hstopAcks, hstopBytes⟩ := ((s.startIf c).phaseRead c.ack).stopIf_slaves c
    refine ⟨_, (completionStep_inflight hl hc).trans (State.complete_read hwr hrd), ?_, ?_, ?_, ?_⟩
    · rw [State.finish_stopIf_trace (ev := [.rx b (masterAnswer c.ack)]) (by rw [← hb]; rfl)]
      simp [masterAnswer]
    · exact hrxr.trans (congrArg some hb)
    · exact hstopBytes.trans (congrArg List.tail (hstartBytes.trans hbytes))
    · exact hstopAcks.trans hstartAcks

/-! The end of a command (R149 to R151). -/

/-- The stop phase is the last one (R149). -/
theorem State.complete_ends_with_stop {s t : State} {c : Cmd} (hsto : c.sto = true) (h : s.complete c = .next t) :
    t.inst.trace.getLast? = some .stop := by
  obtain ⟨u, -, rfl⟩ := State.complete_next.1 h
  rw [State.finish_trace, State.stopIf_trace_eq, Cmd.stopEvents, if_pos hsto]
  exact List.getLast?_concat

/-- Settles O31: Busy by `complete_busy`, and the stop phase comes after every other. -/
theorem stopEndsTheCommand : Obligations.StopEndsTheCommand := by
  intro s t c hc hsto h
  have hcomp : s.complete c = .next t := completionStep_next hc h
  exact ⟨by rw [State.complete_busy hcomp, hsto]; rfl, State.complete_ends_with_stop hsto hcomp⟩

/-- Settles O32: every completion finishes by setting IF and leaving nothing in flight. -/
theorem everyCompletionSetsTheFlag : Obligations.EveryCompletionSetsTheFlag := by
  intro s t c hc h
  have hcomp : s.complete c = .next t := completionStep_next hc h
  exact ⟨State.complete_iflag hcomp, State.complete_inflight hcomp⟩

/-! Who touches the bus (R155). -/

/-- Settles O33: by `step_bus_cases` a step that touches the bus is the controller's, with a command in flight. -/
theorem onlyCompletionTouchesTheBus : Obligations.OnlyCompletionTouchesTheBus := by
  intro s t hs hidle
  obtain ⟨hbusy, hrxr, hack, htrace⟩ | ⟨hmove, c, hc, -⟩ := step_bus_cases hs
  · exact ⟨htrace, hbusy, hrxr, hack⟩
  · obtain hnot | hnone := hidle
    · exact absurd hmove hnot
    · rw [hnone] at hc
      cases hc

end Sys2Proof.Machine
end

section
/-! Proofs of the family of the reference sequences (42_transactions.md): each host statement has one rule that says what its step does and
where the host stands after it, and a call is a chain of these rules. -/

namespace Sys2Proof.Machine

/-! Where the host stands. -/

/-- A live run whose host stands at statement `k` of program `p`, with `ms` the moves to come. -/
structure State.At (s : State) (p : List Stmt) (k : Nat) (ms : List Move) : Prop where
  live : s.inst.live = true
  moves : s.moves = ms
  program : s.host.program = p
  pc : s.host.pc = k

theorem State.At.fetch {s : State} {p : List Stmt} {k : Nat} {ms : List Move} (h : s.At p k ms) : s.fetch = p[k]? := by
  rw [State.fetch, h.program, h.pc]

/-! A run in two parts. -/

theorem coreRun_add (M : Host.Core) {m : Nat} {s t : M.State} (h : M.run m s = .next t) (n : Nat) : M.run (m + n) s = M.run n t := by
  induction m generalizing s with
  | zero =>
    cases h
    rw [Nat.zero_add]
  | succ m ih =>
    rw [Host.Core.run] at h
    split at h
    · rw [Nat.succ_add, coreRun_succ M ‹_›]
      exact ih h
    · cases h
    · cases h

/-- A run is a run of its first steps and then of the rest. -/
theorem runSteps_add {m : Nat} {s t : State} (h : runSteps m s = .next t) (n : Nat) : runSteps (m + n) s = runSteps n t :=
  coreRun_add Sys2Proof.core h n

/-! One rule for each statement, of a host that moves next (R96, R97). -/

theorem hostStmt_writeDecoded {r : WriteReg} {e : Expr} {v : Word} {i : Instr} {s t : State} (he : s.eval e = some v)
    (hd : decode (writeWord r.offset v) = .ok i) (hx : exec i s = .next t) : hostStmt (.write r e) s = .next (t.afterAccess none) := by
  rw [hostStmt_write he, runAccess_decoded hd hx]

section
variable {s t : State} {p : List Stmt} {k : Nat} {ms : List Move} (h : s.At p k (.host :: ms))
include h

theorem State.At.step_eq {st : Stmt} (hst : p[k]? = some st) : step s = hostStmt st s.dropMove :=
  step_hostMove h.live h.moves (h.fetch.trans hst)

/-- A branch leaves the host at its target. -/
theorem State.At.setPc (l : Nat) : (s.dropMove.setPc l).At p l ms :=
  ⟨h.live, congrArg List.tail h.moves, h.program, rfl⟩

/-- A statement that keeps the program, the pc and the moves to come leaves the host at the next statement. -/
theorem State.At.advance (hl : t.inst.live = true) (hm : t.moves = s.dropMove.moves) (hp : t.host.program = s.host.program)
    (hpc : t.host.pc = s.host.pc) : t.advance.At p (k + 1) ms :=
  ⟨hl, hm.trans (congrArg List.tail h.moves), hp.trans h.program, congrArg (· + 1) (hpc.trans h.pc)⟩

theorem State.At.ifGoto {c : Cond} {l : Nat} {b : Bool} (hst : p[k]? = some (.ifGoto c l)) (hb : s.dropMove.evalCond c = some b) :
    step s = .next (s.dropMove.setPc (if b = true then l else k + 1)) := by
  rw [h.step_eq hst, hostStmt, hb, ← h.pc]
  cases b <;> rfl

theorem State.At.assign {x : Nat} {e : Expr} {v : Word} (hst : p[k]? = some (.assign x e)) (he : s.dropMove.eval e = some v) :
    step s = .next (s.dropMove.setVar x v).advance ∧ (s.dropMove.setVar x v).advance.At p (k + 1) ms := by
  refine ⟨?_, h.advance h.live rfl rfl rfl⟩
  rw [h.step_eq hst, hostStmt, he]
  rfl

theorem State.At.ret (v : Option Word) (hst : p[k]? = some (.ret (v.map .lit))) : step s = .next (s.dropMove.returnWith v) := by
  rw [h.step_eq hst]
  cases v <;> rfl

/-- A write that its register takes. -/
theorem State.At.write {r : WriteReg} {e : Expr} {v : Word} {i : Instr} (hst : p[k]? = some (.write r e))
    (he : s.dropMove.eval e = some v) (hd : decode (writeWord r.offset v) = .ok i) (hx : exec i s.dropMove = .next t)
    (hl : t.inst.live = true) : step s = .next t.advance ∧ t.advance.At p (k + 1) ms := by
  obtain ⟨hhost, hm, -, -⟩ := exec_host hx
  refine ⟨?_, h.advance hl hm (by rw [hhost]; rfl) (by rw [hhost]; rfl)⟩
  rw [h.step_eq hst, hostStmt_writeDecoded he hd hx, State.afterAccess_live hl]
  rfl

/-- A write that faults: the host stays where it is. -/
theorem State.At.write_faults {r : WriteReg} {e : Expr} {v : Word} {i : Instr} {f : FaultReason} (hst : p[k]? = some (.write r e))
    (he : s.dropMove.eval e = some v) (hd : decode (writeWord r.offset v) = .ok i)
    (hx : exec i s.dropMove = .next (s.dropMove.raise f)) : step s = .next (s.dropMove.raise f) := by
  rw [h.step_eq hst, hostStmt_writeDecoded he hd hx, State.afterAccess_quiescent (State.raise_live _ _)]

section
variable {e : Expr} {v : Word} {d : Byte} (he : s.dropMove.eval e = some v) (hd : v.extractLsb' 0 8 = d)
include he hd

theorem State.At.writeCtr (hst : p[k]? = some (.write .ctr e)) (hres : ctrReserved d = false)
    (hcheck : (s.inst.en && !ctrEnOf d && s.inst.active) = false) :
    step s = .next (s.dropMove.setCtr (ctrEnOf d) (ctrIenOf d)).advance ∧
      (s.dropMove.setCtr (ctrEnOf d) (ctrIenOf d)).advance.At p (k + 1) ms := by
  subst hd
  exact h.write hst he (decode_ok.2 ⟨Instr.wrCtr_wellFormed.2 hres, rfl⟩)
    ((exec_wrCtr_next hres).2 ⟨h.live, .inr ⟨hcheck, rfl⟩⟩) h.live

theorem State.At.writeCtr_faults (hst : p[k]? = some (.write .ctr e)) (hres : ctrReserved d = false)
    (hcheck : (s.inst.en && !ctrEnOf d && s.inst.active) = true) : step s = .next (s.dropMove.raise .disableWhileActive) := by
  subst hd
  exact h.write_faults hst he (decode_ok.2 ⟨Instr.wrCtr_wellFormed.2 hres, rfl⟩)
    ((exec_wrCtr_next hres).2 ⟨h.live, .inl ⟨hcheck, rfl⟩⟩)

theorem State.At.writePrerlo (hst : p[k]? = some (.write .prerlo e)) (hen : s.inst.en = false) :
    step s = .next (s.dropMove.setPrerlo d).advance ∧ (s.dropMove.setPrerlo d).advance.At p (k + 1) ms := by
  subst hd
  exact h.write (i := .wrPrerlo _) hst he (decode_ok.2 ⟨rfl, rfl⟩) (exec_wrPrerlo_next.2 ⟨h.live, .inr ⟨hen, rfl⟩⟩) h.live

theorem State.At.writePrerhi (hst : p[k]? = some (.write .prerhi e)) (hen : s.inst.en = false) :
    step s = .next (s.dropMove.setPrerhi d).advance ∧ (s.dropMove.setPrerhi d).advance.At p (k + 1) ms := by
  subst hd
  exact h.write (i := .wrPrerhi _) hst he (decode_ok.2 ⟨rfl, rfl⟩) (exec_wrPrerhi_next.2 ⟨h.live, .inr ⟨hen, rfl⟩⟩) h.live

theorem State.At.writeTxr (hst : p[k]? = some (.write .txr e)) (hw : s.inst.writing = false) :
    step s = .next (s.dropMove.setTxr d).advance ∧ (s.dropMove.setTxr d).advance.At p (k + 1) ms := by
  subst hd
  exact h.write (i := .wrTxr _) hst he (decode_ok.2 ⟨rfl, rfl⟩) (exec_wrTxr_next.2 ⟨h.live, .inr ⟨hw, rfl⟩⟩) h.live

end

section
variable {i : Instr} {c : Cmd} (hst : p[k]? = some (.write .cr (crByte c false))) (hcmd : i.command = some (c, false))
include hst hcmd

/-- A command write that passes the checks of R119. -/
theorem State.At.command (hstarts : c.starts = true) (hf : s.inst.commandFault c = none) :
    step s = .next (s.dropMove.setInflight (some c)).advance ∧
      (s.dropMove.setInflight (some c)).advance.At p (k + 1) ms := by
  have hx := exec_command_passes (s := s.dropMove) hcmd h.live hf
  rw [State.acknowledge_false, State.issue_starts _ hstarts] at hx
  exact h.write hst rfl (decode_crByte hcmd) hx h.live

theorem State.At.command_faults {f : FaultReason} (hf : s.inst.commandFault c = some f) :
    step s = .next (s.dropMove.raise f) :=
  h.write_faults hst rfl (decode_crByte hcmd) (exec_command_faults (s := s.dropMove) hcmd h.live hf)

end

end

/-! Beginning a call, and its index check (R180). -/

/-- The index `i` of a call. -/
def Call.index (c : Call) : Word :=
  match c with
  | .enable i => i
  | .setClock i _ => i
  | .disable i => i
  | .read i _ _ _ => i
  | .write i _ _ _ => i

/-- What a call with an index out of range returns (R180). -/
def Call.outOfRangeResult (c : Call) : Option Word :=
  match c with
  | .read _ _ _ _ => some Config.resOutOfRange
  | .write _ _ _ _ => some Config.resOutOfRange
  | .enable _ => none
  | .setClock _ _ => none
  | .disable _ => none

/-- Every call begins with the index check, and returns where the index is out of range. -/
theorem Call.program_indexCheck (c : Call) :
    c.program[0]? = some (.ifGoto (.ge (.lit c.index) (num Config.numInstances)) (labelIndex lblOutOfRange c.lines)) ∧
      c.program[labelIndex lblOutOfRange c.lines]? = some (.ret (c.outOfRangeResult.map .lit)) := by
  cases c with
  | setClock i baud =>
    simp only [Call.program, Call.lines, setClockLines]
    split <;> exact ⟨rfl, rfl⟩
  | enable _ | disable _ | read _ _ _ _ | write _ _ _ _ => exact ⟨rfl, rfl⟩

/-- After the step that begins call `c` and the one of its index check, at statement `k`. -/
def State.called (s : State) (c : Call) (rest : List Call) (k : Nat) : State := (s.dropMove.begin c rest).dropMove.setPc k

theorem step_begin {s : State} {c : Call} {rest : List Call} {ms : List Move} (hl : s.inst.live = true) (hm : s.moves = .host :: ms)
    (hf : s.fetch = none) (hc : s.host.calls = c :: rest) : step s = .next (s.dropMove.begin c rest) := by
  rw [step_live hl, State.chooseMove_named hm]
  simp only [runMove, hostStep, show s.dropMove.fetch = none from hf, show s.dropMove.host.calls = c :: rest from hc]

section
variable {s : State} {c : Call} {rest : List Call} {ms : List Move} (hl : s.inst.live = true) (hm : s.moves = .host :: .host :: ms)
  (hf : s.fetch = none) (hc : s.host.calls = c :: rest)
include hl hm

theorem State.called_at (k : Nat) : (s.called c rest k).At c.program k ms :=
  ⟨hl, congrArg (fun l => l.tail.tail) hm, rfl, rfl⟩

include hf hc

theorem runSteps_call (n : Nat) :
    runSteps (n + 2) s =
      runSteps n (s.called c rest (if Config.numInstances ≤ c.index.toNat then labelIndex lblOutOfRange c.lines else 1)) := by
  have hat : (s.dropMove.begin c rest).At c.program 0 (.host :: ms) := ⟨hl, congrArg List.tail hm, rfl, rfl⟩
  have hcheck : (s.dropMove.begin c rest).dropMove.evalCond (.ge (.lit c.index) (num Config.numInstances)) =
      some (decide (Config.numInstances ≤ c.index.toNat)) := rfl
  have h2 := hat.ifGoto c.program_indexCheck.1 hcheck
  simp only [decide_eq_true_eq] at h2
  exact (runSteps_succ (step_begin hl hm hf hc) (n + 1)).trans (runSteps_succ h2 n)

theorem runSteps_call_inRange (hi : c.index = 0) (n : Nat) : runSteps (n + 2) s = runSteps n (s.called c rest 1) := by
  rw [runSteps_call hl hm hf hc, if_neg (by rw [hi]; decide)]

end

theorem runSteps_call_outOfRange {s : State} {c : Call} {rest : List Call} {ms : List Move} (hl : s.inst.live = true)
    (hm : s.moves = List.replicate 3 .host ++ ms) (hf : s.fetch = none) (hc : s.host.calls = c :: rest)
    (hi : Config.numInstances ≤ c.index.toNat) :
    ∃ t, runSteps 3 s = .next t ∧ t.inst = s.inst ∧ t.host.results = s.host.results ++ [⟨c.outOfRangeResult, c.buffer⟩] ∧
      t.host.calls = rest := by
  have hret := (State.called_at (c := c) (rest := rest) hl hm _).ret _ c.program_indexCheck.2
  have hrun := runSteps_call hl hm hf hc 1
  rw [if_pos hi] at hrun
  exact ⟨_, hrun.trans (runSteps_succ hret 0), rfl, rfl, rfl⟩

/-- Settles O50: every call makes its index check first, and the branch it takes returns. -/
theorem outOfRangeIndexTouchesNothing : Obligations.OutOfRangeIndexTouchesNothing := by
  intro s i addr len baud buf rest ms hl hf hi hm
  refine ⟨?_, ?_⟩
  · rintro c (rfl | rfl | rfl) hc <;> exact runSteps_call_outOfRange hl hm hf hc hi
  · rintro c (rfl | rfl) hc <;> exact runSteps_call_outOfRange hl hm hf hc hi

/-! DISABLE (R184). -/

/-- The stop command. -/
def stopCommand : Cmd := { sta := false, sto := true, rd := false, wr := false, ack := false }

/-- Settles O49: after the index check, DISABLE is one command write of a stop, whose checks are EN and what is in flight. -/
theorem disableIssuesOneStop : Obligations.DisableIssuesOneStop := by
  intro s rest ms hl hf hc hm
  have hat : (s.called (.disable 0) rest 1).At (Call.disable 0).program 1 (.host :: .host :: ms) := State.called_at hl hm 1
  have hst : (Call.disable 0).program[1]? = some (.write .cr (crByte stopCommand false)) := rfl
  have hcmd : Instr.command (.crSto false) = some (stopCommand, false) := rfl
  have hfault : ∀ {r}, s.inst.commandFault stopCommand = some r →
      ∃ t, runSteps 3 s = .next t ∧ t.inst = { s.inst with faults := s.inst.faults ++ [r] } := by
    intro r hr
    exact ⟨_, (runSteps_call_inRange hl hm hf hc rfl 1).trans (runSteps_succ (hat.command_faults hst hcmd hr) 0), rfl⟩
  refine ⟨fun hen hidle => ?_, fun hen => hfault (Inst.commandFault_disabled hen _),
    fun hen hbusy => hfault (Inst.commandFault_inFlight hen hbusy)⟩
  have hpass : s.inst.commandFault stopCommand = none := Inst.commandFault_none.2 (by simp [hen, hidle, stopCommand])
  obtain ⟨hwrite, hat'⟩ := hat.command hst hcmd rfl hpass
  exact ⟨_, (runSteps_call_inRange hl hm hf hc rfl 2).trans ((runSteps_succ hwrite 1).trans (runSteps_succ (hat'.ret none rfl) 0)),
    rfl, hen, rfl, rfl⟩

/-! ENABLE and SET_CLOCK (R182, R183). -/

/-- The statements of R182 and R183 for index 0 and prescale `p`. -/
def configureProgram (p : Nat) : List Stmt :=
  [.ifGoto (.ge (.lit 0) (num 1)) 6,
   .assign varP (num p),
   .write .ctr (num 0),
   .write .prerlo (.bin .mod (.var varP) (num 256)),
   .write .prerhi (.bin .mod (.bin .div (.var varP) (num 256)) (num 256)),
   .write .ctr ctrEnByte,
   .ret none]

/-- Call `c` runs these statements: ENABLE 0, and SET_CLOCK 0 with a baud. -/
structure Call.Configures (c : Call) (p : Nat) : Prop where
  index : c.index = 0
  program : c.program = configureProgram p
  buffer : c.buffer = []

theorem Call.enable_configures : (Call.enable 0).Configures (prescale Config.baudDefault) := ⟨rfl, rfl, rfl⟩

theorem Call.setClock_configures {baud : Nat} (h : 1 ≤ baud) : (Call.setClock 0 baud).Configures (prescale baud) :=
  ⟨rfl, congrArg assemble (if_neg (by omega)), rfl⟩

/-- 32-bit arithmetic gives the two prescale bytes, since R85 keeps only the 16 low bits. -/
theorem State.eval_prescaleLow {s : State} {p : Nat} (h : s.varValue varP = BitVec.ofNat 32 p) :
    ∃ v, s.eval (.bin .mod (.var varP) (num 256)) = some v ∧ v.extractLsb' 0 8 = prescaleLow p := by
  refine ⟨BitVec.ofNat 32 p % 256#32, by rw [← h]; rfl, BitVec.eq_of_toNat_eq ?_⟩
  simp [prescaleLow, BitVec.extractLsb'_toNat]

theorem State.eval_prescaleHigh {s : State} {p : Nat} (h : s.varValue varP = BitVec.ofNat 32 p) :
    ∃ v, s.eval (.bin .mod (.bin .div (.var varP) (num 256)) (num 256)) = some v ∧ v.extractLsb' 0 8 = prescaleHigh p := by
  refine ⟨BitVec.ofNat 32 p / 256#32 % 256#32, by rw [← h]; rfl, BitVec.eq_of_toNat_eq ?_⟩
  simp only [prescaleHigh, BitVec.extractLsb'_toNat, BitVec.toNat_umod, BitVec.toNat_udiv, BitVec.toNat_ofNat, Nat.shiftRight_zero,
    Nat.reducePow, Nat.reduceMod]
  omega

/-- The controller after ENABLE or SET_CLOCK with prescale `p`. -/
def Inst.configured (i : Inst) (p : Nat) : Inst :=
  { i with prerlo := some (prescaleLow p), prerhi := some (prescaleHigh p), en := true, ien := false }

/-- The four writes and the return, in the order of R253: the prescale is written while EN is 0. -/
theorem State.At.configure {s : State} {p : Nat} {ms : List Move} (h : s.At (configureProgram p) 2 (List.replicate 5 .host ++ ms))
    (hp : s.varValue varP = BitVec.ofNat 32 p) (hcheck : (s.inst.en && !ctrEnOf 0 && s.inst.active) = false) :
    ∃ t, runSteps 5 s = .next t ∧ t.inst = s.inst.configured p ∧ t.host.results = s.host.results ++ [⟨none, s.host.buf⟩] ∧
      t.host.calls = s.host.calls ∧ t.fetch = none ∧ t.moves = ms := by
  obtain ⟨h1, a1⟩ := h.writeCtr (v := 0) (d := 0) rfl rfl rfl (by decide) hcheck
  obtain ⟨low, hlow, hlowByte⟩ := State.eval_prescaleLow (s := (s.dropMove.setCtr false false).advance.dropMove) hp
  obtain ⟨h2, a2⟩ := a1.writePrerlo hlow hlowByte rfl rfl
  obtain ⟨high, hhigh, hhighByte⟩ :=
    State.eval_prescaleHigh (s := ((s.dropMove.setCtr false false).advance.dropMove.setPrerlo (prescaleLow p)).advance.dropMove) hp
  obtain ⟨h3, a3⟩ := a2.writePrerhi hhigh hhighByte rfl rfl
  obtain ⟨h4, a4⟩ := a3.writeCtr (v := 128) (d := 128) rfl rfl rfl (by decide) rfl
  exact ⟨_, (runSteps_succ h1 4).trans ((runSteps_succ h2 3).trans ((runSteps_succ h3 2).trans ((runSteps_succ h4 1).trans
    (runSteps_succ (a4.ret none rfl) 0)))), rfl, rfl, rfl, rfl, congrArg (List.tail^[5]) h.moves⟩

/-- After the steps that begin call `c`, check its index and assign the prescale `p`. -/
def State.configuring (s : State) (c : Call) (rest : List Call) (p : Nat) : State :=
  ((s.called c rest 1).dropMove.setVar varP (BitVec.ofNat 32 p)).advance

section
variable {s : State} {c : Call} {rest : List Call} {p : Nat} {ms : List Move} (h : c.Configures p) (hl : s.inst.live = true)
  (hf : s.fetch = none) (hc : s.host.calls = c :: rest)
include h hl hf hc

theorem Call.Configures.begins (hm : s.moves = .host :: .host :: .host :: ms) (n : Nat) :
    runSteps (n + 3) s = runSteps n (s.configuring c rest p) ∧ (s.configuring c rest p).At (configureProgram p) 2 ms := by
  have hat := State.called_at (c := c) (rest := rest) hl hm 1
  rw [h.program] at hat
  obtain ⟨h3, hat'⟩ := hat.assign (x := varP) (v := BitVec.ofNat 32 p) rfl rfl
  exact ⟨(runSteps_call_inRange hl hm hf hc h.index (n + 1)).trans (runSteps_succ h3 n), hat'⟩

/-- On an active enabled core the first write, which would clear EN, faults (R115). -/
theorem Call.Configures.faults (hm : s.moves = List.replicate 4 .host ++ ms) (hen : s.inst.en = true)
    (hact : s.inst.inflight ≠ none ∨ s.inst.busy = true) :
    runSteps 4 s = .next ((s.configuring c rest p).dropMove.raise .disableWhileActive) := by
  obtain ⟨h3, hat⟩ := h.begins hl hf hc hm 1
  have hcheck : (s.inst.en && !ctrEnOf 0 && s.inst.active) = true := Inst.disablesActive_iff.2 ⟨hen, rfl, hact⟩
  exact h3.trans (runSteps_succ (hat.writeCtr_faults (v := 0) (d := 0) rfl rfl rfl (by decide) hcheck) 0)

theorem Call.Configures.runs (hm : s.moves = List.replicate 8 .host ++ ms)
    (hidle : s.inst.en = false ∨ s.inst.inflight = none ∧ s.inst.busy = false) :
    ∃ t, runSteps 8 s = .next t ∧ t.inst = s.inst.configured p ∧ t.host.results = s.host.results ++ [⟨none, []⟩] ∧
      t.host.calls = rest ∧ t.fetch = none ∧ t.moves = ms := by
  obtain ⟨h3, hat⟩ := h.begins hl hf hc hm 5
  have hcheck : (s.inst.en && !ctrEnOf 0 && s.inst.active) = false := by
    rw [← Bool.not_eq_true, Inst.disablesActive_iff]
    rintro ⟨hen, -, hact⟩
    obtain hoff | ⟨hnone, hbusy⟩ := hidle
    · exact absurd (hen.symm.trans hoff) (by decide)
    · simp [hnone, hbusy] at hact
  obtain ⟨t, h5, hinst, hres, hcalls, hfetch, hmoves⟩ := hat.configure (State.varValue_setVar_same _ _ _) hcheck
  refine ⟨t, h3.trans h5, hinst, hres.trans ?_, hcalls, hfetch, hmoves⟩
  rw [← h.buffer]
  rfl

end

/-- Settles O47: ENABLE 0 is the configuring call with the default prescale. -/
theorem enableConfigures : Obligations.EnableConfigures := by
  intro s rest ms hl hf hc hm
  exact ⟨fun hidle => Call.enable_configures.runs hl hf hc hm hidle,
    fun hen hact => ⟨_, Call.enable_configures.faults hl hf hc hm hen hact, rfl⟩⟩

/-- Settles O48: after the first call the core is as idle as before it, so the second runs too, and writes what the registers hold. -/
theorem setClockIsIdempotent : Obligations.SetClockIsIdempotent := by
  intro s baud ms hl hf hbaud hc hm
  have h := Call.setClock_configures hbaud
  refine ⟨fun hen hact => ⟨_, h.faults hl hf hc hm hen hact, rfl, rfl, fun u hu => ?_⟩, fun hidle hbusy => ?_⟩
  · cases (State.raise_live _ _).symm.trans (step_cases hu).1
  · obtain ⟨t, ht, htinst, -, htcalls, htfetch, htmoves⟩ :=
      h.runs (ms := List.replicate 8 .host ++ ms) hl hf hc hm (.inr ⟨hidle, hbusy⟩)
    obtain ⟨u, hu, huinst, -⟩ :=
      h.runs (s := t) (by rw [htinst]; exact hl) htfetch htcalls htmoves (.inr (by rw [htinst]; exact ⟨hidle, hbusy⟩))
    refine ⟨t, u, ht, (runSteps_add ht 8).trans hu, ?_, htinst⟩
    rw [huinst, htinst]
    rfl

/-! Malformed calls (R181, R185). -/

/-- Within `n` steps the refusal mark is set, and nothing else of the controller changes. -/
def State.RefusedWithin (s : State) (n : Nat) : Prop :=
  ∃ m t, m ≤ n ∧ runSteps m s = .next t ∧ t.inst = { s.inst with refused := true }

section
variable {s : State} {p : List Stmt} {k : Nat} {ms : List Move}

/-- What is refused after `m` steps that leave the controller alone. -/
theorem State.RefusedWithin.of_runSteps {t : State} {m n : Nat} (hrun : ∀ j, runSteps (j + m) s = runSteps j t) (hinst : t.inst = s.inst)
    (h : t.RefusedWithin n) : s.RefusedWithin (n + m) := by
  obtain ⟨j, u, hj, hu, huinst⟩ := h
  exact ⟨j + m, u, by omega, (hrun j).trans hu, by rw [huinst, hinst]⟩

theorem State.At.refuse (h : s.At p k (.host :: ms)) (hst : p[k]? = some .refuse) : step s = .next s.dropMove.refuse :=
  h.step_eq hst

/-- A check of R185 that goes to the refusal, or on to what is refused after it. -/
theorem State.At.refusedWithin {c : Cond} {l n : Nat} {b : Bool} (h : s.At p k (.host :: .host :: ms))
    (hst : p[k]? = some (.ifGoto c l)) (hl : p[l]? = some .refuse) (hb : s.dropMove.evalCond c = some b)
    (hrest : b = false → (s.dropMove.setPc (k + 1)).RefusedWithin (n + 1)) : s.RefusedWithin (n + 2) := by
  have h1 := h.ifGoto hst hb
  cases b with
  | true => exact ⟨2, _, by omega, (runSteps_succ h1 1).trans (runSteps_succ ((h.setPc l).refuse hl) 0), rfl⟩
  | false => exact (hrest rfl).of_runSteps (m := 1) (runSteps_succ h1) rfl

end

/-- The checks of R185 at statements 1 to 3 of program `p`, each with the refusal as its target. -/
def ChecksTransfer (p : List Stmt) (addr len : Word) : Prop :=
  ∃ l, p[1]? = some (.ifGoto (.ge (.lit addr) (num 128)) l) ∧ p[2]? = some (.ifGoto (.eq (.lit len) (num 0)) l) ∧
    p[3]? = some (.ifGoto (.exceedsBuffer (.lit len)) l) ∧ p[l]? = some .refuse

theorem Call.read_checksTransfer (i addr len : Word) (buf : List Byte) : ChecksTransfer (Call.read i addr len buf).program addr len :=
  ⟨labelIndex lblRefuse (readLines i addr len), rfl, rfl, rfl, rfl⟩

theorem Call.write_checksTransfer (i addr len : Word) (buf : List Byte) : ChecksTransfer (Call.write i addr buf len).program addr len :=
  ⟨labelIndex lblRefuse (writeLines i addr len), rfl, rfl, rfl, rfl⟩

/-- A malformed transfer past its index check: one of the three checks goes to the refusal. -/
theorem State.At.malformedTransfer {s : State} {p : List Stmt} {addr len : Word} {ms : List Move}
    (h : s.At p 1 (List.replicate 4 .host ++ ms)) (hp : ChecksTransfer p addr len)
    (hbad : 128 ≤ addr.toNat ∨ len = 0 ∨ s.host.buf.length < len.toNat) : s.RefusedWithin 4 := by
  obtain ⟨l, haddr, hlen, hbuf, hrefuse⟩ := hp
  refine h.refusedWithin (b := decide (128 ≤ addr.toNat)) haddr hrefuse rfl fun hin => ?_
  refine (h.setPc 2).refusedWithin (b := len == 0) hlen hrefuse rfl fun hpos => ?_
  refine ((h.setPc 2).setPc 3).refusedWithin (b := decide (s.host.buf.length < len.toNat)) hbuf hrefuse rfl fun hfits => ?_
  rw [decide_eq_false_iff_not] at hin hfits
  exact absurd hbad (not_or.2 ⟨hin, not_or.2 ⟨ne_of_beq_false hpos, hfits⟩⟩)

theorem malformedTransfer_refusedWithin {s : State} {c : Call} {addr len : Word} {rest : List Call} {ms : List Move}
    (hl : s.inst.live = true) (hm : s.moves = List.replicate 6 .host ++ ms) (hf : s.fetch = none) (hc : s.host.calls = c :: rest)
    (hi : c.index = 0) (hp : ChecksTransfer c.program addr len)
    (hbad : 128 ≤ addr.toNat ∨ len = 0 ∨ c.buffer.length < len.toNat) : s.RefusedWithin 6 :=
  ((State.called_at (rest := rest) hl hm 1).malformedTransfer hp hbad).of_runSteps (runSteps_call_inRange hl hm hf hc hi) rfl

/-- Settles O51: one of the checks fires, and its branch refuses. -/
theorem malformedCallsAreRefused : Obligations.MalformedCallsAreRefused := by
  intro s addr len buf rest ms hl hf hm
  refine ⟨?_, fun hc => ?_⟩
  · rintro hbad c (rfl | rfl) hc
    · exact malformedTransfer_refusedWithin hl hm hf hc rfl (Call.read_checksTransfer 0 addr len buf) hbad
    · exact malformedTransfer_refusedWithin hl hm hf hc rfl (Call.write_checksTransfer 0 addr len buf) hbad
  · have hat := State.called_at (c := .setClock 0 0) (rest := rest) hl hm 1
    exact ⟨_, (runSteps_call_inRange hl hm hf hc rfl 1).trans (runSteps_succ (hat.refuse rfl) 0), rfl⟩

/-! A NACK at a CHECK_ACK of READ and WRITE (R186, R187, R191). -/

/-- CHECK_ACK on a NACK, and the return it branches to. -/
theorem State.At.nackReturns {s : State} {p : List Stmt} {k l : Nat} {v : Word} {ms : List Move}
    (h : s.At p k (List.replicate 3 .host ++ ms)) (hread : p[k]? = some (.read .sr varS))
    (hbranch : p[k + 1]? = some (.ifGoto (.eq (.bit (.var varS) 7) (num 1)) l)) (hret : p[l]? = some (.ret (some (.lit v))))
    (hc : s.inst.inflight = none) (ha : s.inst.rxack = some 1) :
    ∃ t, runSteps 3 s = .next t ∧ t.inst = s.inst ∧ t.host.results = s.host.results ++ [⟨some v, s.host.buf⟩] ∧
      t.host.program = [] := by
  obtain ⟨hl, hm, rfl, rfl⟩ := h
  have hrun := runSteps_statusBranch (by decide) hl hm hread hbranch
  obtain ⟨-, -, hrxack, -⟩ := State.flags_idle hc
  have hnack : s.srByte.getLsbD 7 = true := by
    rw [State.srByte_rxack, hrxack 1 ha]
    rfl
  rw [if_pos hnack] at hrun
  have hat : (s.statusRead.dropMove.dropMove.setPc l).At s.host.program l (.host :: ms) :=
    ⟨hl, congrArg (List.tail^[2]) hm, rfl, rfl⟩
  exact ⟨_, (runSteps_add hrun 1).trans (runSteps_succ (hat.ret (some v) hret) 0), rfl, rfl, rfl⟩

/-- Settles O54: READ and WRITE have the same address check. -/
theorem addressNackAbortsWithoutStop : Obligations.AddressNackAbortsWithoutStop := by
  intro s i addr len buf c ms hl hm hcall hprog hpc hc ha
  have hat : s.At c.program (labelIndex lblAddressEnd c.lines - 2) (List.replicate 3 .host ++ ms) := ⟨hl, hm, hprog, hpc⟩
  obtain rfl | rfl := hcall
  · exact hat.nackReturns (l := labelIndex lblNack (readLines i addr len)) rfl rfl rfl hc ha
  · exact hat.nackReturns (l := labelIndex lblNack (writeLines i addr len)) rfl rfl rfl hc ha

/-- Settles O55: the data check of WRITE is the same pair of statements. -/
theorem dataNackAbortsTheWrite : Obligations.DataNackAbortsTheWrite := by
  intro s i addr len buf ms hl hm hprog hpc hc ha
  have hat : s.At (Call.write i addr buf len).program (labelIndex lblDataEnd (writeLines i addr len) - 2) (List.replicate 3 .host ++ ms) :=
    ⟨hl, hm, hprog, hpc⟩
  exact hat.nackReturns (l := labelIndex lblNack (writeLines i addr len)) rfl rfl rfl hc ha

/-! The bytes of READ and WRITE (R186, R187). -/

theorem State.varValue_of_lookup {s : State} {x : Nat} {v : Word} (h : lookupVar x s.host.vars = some v) : s.varValue x = v := by
  simp [State.varValue, h]

theorem State.varValue_setVar_ne {s : State} {x y : Nat} (h : varsOrdered s.host.vars) (hxy : x ≠ y) (v : Word) :
    (s.setVar y v).varValue x = s.varValue x := by
  have hlookup : lookupVar x (s.setVar y v).host.vars = lookupVar x s.host.vars :=
    (lookupVar_insertVar x y v s.host.vars h).trans (if_neg hxy)
  rw [State.varValue, State.varValue, hlookup]
  rfl

/-- The word that `R RXR -> v` delivers. -/
def State.receivedWord (s : State) (b : Byte) : Word := s.draw24 ++ b

theorem byteWord_lowByte (b : Byte) : (b.setWidth 32).extractLsb' 0 8 = b :=
  (BitVec.extractLsb'_setWidth_of_le (by decide)).trans BitVec.extractLsb'_eq_self

theorem State.receivedWord_lowByte (s : State) (b : Byte) : (s.receivedWord b).extractLsb' 0 8 = b :=
  BitVec.extractLsb'_append_eq_right

section
variable {s : State} {p : List Stmt} {k : Nat} {ms : List Move} (h : s.At p k (.host :: ms))
include h

theorem State.At.readRxr {x : Nat} {b : Byte} (hst : p[k]? = some (.read .rxr x)) (hb : s.rxrRead = some b) :
    step s = .next ((s.dropMove.answer b).setVar x (s.receivedWord b)).advance ∧
      ((s.dropMove.answer b).setVar x (s.receivedWord b)).advance.At p (k + 1) ms := by
  have hd : decode (readWord ReadReg.rxr.offset) = .ok .rdRxr := by decide
  have hx : exec .rdRxr s.dropMove = .next (s.dropMove.answer b) := by
    have hheld : s.dropMove.readHeld .rxr s.dropMove.rxrRead = s.dropMove.answer b := by
      rw [show s.dropMove.rxrRead = some b from hb]
      rfl
    rw [exec, execRdRxr, hheld]
    exact State.access_live h.live _
  refine ⟨?_, h.advance h.live rfl rfl rfl⟩
  rw [h.step_eq hst, hostStmt, runAccess_decoded hd hx, State.afterAccess_live (t := s.dropMove.answer b) h.live]
  rfl

theorem State.At.storeLowByte {e : Expr} {x : Nat} {j : Word} {b : Byte} (hst : p[k]? = some (.store e (.lowByte (.var x))))
    (he : s.dropMove.eval e = some j) (hx : (s.varValue x).extractLsb' 0 8 = b) (hj : j.toNat < s.host.buf.length) :
    step s = .next (s.dropMove.setBuf (s.host.buf.set j.toNat b)).advance := by
  have hbyte : s.dropMove.eval (.lowByte (.var x)) = some (b.setWidth 32) := by rw [← hx]; rfl
  rw [h.step_eq hst, hostStmt, he, hbyte]
  simp only [State.withValue, byteWord_lowByte]
  exact congrArg Host.Outcome.next (if_pos hj)

end

/-- Settles O56: the read delivers RXR's byte as the low byte of its word, and leaves the counter. -/
theorem readCopiesTheReceivedByte : Obligations.ReadCopiesTheReceivedByte := by
  intro s i addr len k b buf ms hl hm hprog hpc hvars hk hlen hc hb
  have hat : s.At (Call.read i addr len buf).program (labelIndex lblDataEnd (readLines i addr len)) ([.host, .host] ++ ms) :=
    ⟨hl, hm, hprog, hpc⟩
  obtain ⟨h1, hat'⟩ := hat.readRxr (x := varV) rfl ((State.rxrRead_held (by simp [hc])).trans hb)
  have hcounter := (State.varValue_setVar_ne (s := s.dropMove.answer b) hvars (show varK ≠ varV by decide) (s.receivedWord b)).trans
    (State.varValue_of_lookup (s := s.dropMove.answer b) hk)
  have hword : (((s.dropMove.answer b).setVar varV (s.receivedWord b)).varValue varV).extractLsb' 0 8 = b := by
    rw [State.varValue_setVar_same, State.receivedWord_lowByte]
  have h2 := hat'.storeLowByte rfl (congrArg some hcounter) hword hlen
  exact ⟨_, (runSteps_succ h1 1).trans (runSteps_succ h2 0), rfl, rfl, rfl, rfl⟩

theorem State.evalCond_isLastByte {s : State} {k : Word} (h : s.varValue varK = k) (len : Word) :
    s.evalCond (isLastByte len) = some (decide (k = len - 1)) := by
  subst h
  rfl

/-- A branch, and the command write it leads to. -/
theorem State.At.branchThenCommand {s : State} {p : List Stmt} {j l : Nat} {ms : List Move} {cond : Cond} {b : Bool} {i : Instr}
    {c : Cmd} (h : s.At p j (.host :: .host :: ms)) (hbranch : p[j]? = some (.ifGoto cond l)) (hb : s.dropMove.evalCond cond = some b)
    (hst : p[if b = true then l else j + 1]? = some (.write .cr (crByte c false))) (hcmd : i.command = some (c, false))
    (hstarts : c.starts = true) (hf : s.inst.commandFault c = none) :
    ∃ t, runSteps 2 s = .next t ∧ t.inst = { s.inst with inflight := some c } ∧
      t.host.pc = (if b = true then l else j + 1) + 1 := by
  obtain ⟨h2, -⟩ := (h.setPc _).command hst hcmd hstarts hf
  exact ⟨_, (runSteps_succ (h.ifGoto hbranch hb) 1).trans (runSteps_succ h2 0), rfl, rfl⟩

/-- Settles O59: the branch on the last byte chooses between the two read commands. -/
theorem readRequestsAByte : Obligations.ReadRequestsAByte := by
  intro s i addr len k buf ms hl hm hprog hpc hk hen hc hbusy
  have hat : s.At (Call.read i addr len buf).program (labelIndex lblLoop (readLines i addr len)) ([.host, .host] ++ ms) :=
    ⟨hl, hm, hprog, hpc⟩
  have hlastByte := State.evalCond_isLastByte (s := s.dropMove) (State.varValue_of_lookup hk) len
  have hpass : ∀ last, s.inst.commandFault ⟨false, last, true, false, last⟩ = none :=
    fun last => Inst.commandFault_none.2 (by simp [hen, hc, hbusy])
  by_cases hlast : k = len - 1
  · rw [decide_eq_true hlast] at hlastByte ⊢
    rw [if_pos hlast]
    exact hat.branchThenCommand (i := .crRdAckSto false) rfl hlastByte rfl rfl rfl (hpass true)
  · rw [decide_eq_false hlast] at hlastByte ⊢
    rw [if_neg hlast]
    exact hat.branchThenCommand (i := .crRd false) rfl hlastByte rfl rfl rfl (hpass false)

theorem State.eval_bufferByte {s : State} {x : Nat} {k : Word} {b : Byte} (hk : s.varValue x = k) (hb : s.host.buf[k.toNat]? = some b) :
    s.eval (.buf (.var x)) = some (b.setWidth 32) := by
  subst hk
  simp only [State.eval, hb]
  rfl

/-- Settles O58: the byte goes to TXR, and the branch on the last byte chooses between the two write commands. -/
theorem writeSendsTheBufferByte : Obligations.WriteSendsTheBufferByte := by
  intro s i addr len k b buf ms hl hm hprog hpc hk hb hen hc hbusy
  have hat : s.At (Call.write i addr buf len).program (labelIndex lblLoop (writeLines i addr len)) (List.replicate 3 .host ++ ms) :=
    ⟨hl, hm, hprog, hpc⟩
  have hcounter : s.dropMove.varValue varK = k := State.varValue_of_lookup hk
  obtain ⟨h1, hat'⟩ := hat.writeTxr (State.eval_bufferByte hcounter hb) (byteWord_lowByte b) rfl (by simp [Inst.writing, hc])
  have hlastByte := State.evalCond_isLastByte (s := (s.dropMove.setTxr b).advance.dropMove) hcounter len
  have hpass : ∀ last, (s.dropMove.setTxr b).inst.commandFault ⟨false, last, false, true, false⟩ = none :=
    fun last => Inst.commandFault_none.2 (by simp [hen, hc, hbusy])
  rw [runSteps_succ h1]
  by_cases hlast : k = len - 1
  · rw [decide_eq_true hlast] at hlastByte ⊢
    rw [if_pos hlast]
    exact hat'.branchThenCommand (i := .crWrSto false) rfl hlastByte rfl rfl rfl (hpass true)
  · rw [decide_eq_false hlast] at hlastByte ⊢
    rw [if_neg hlast]
    exact hat'.branchThenCommand (i := .crWr false) rfl hlastByte rfl rfl rfl (hpass false)

/-! The transaction state by position (R190). -/

/-- The labels that bound the rows of R190's table, in the order of the sequences. -/
def phaseLabels : List Nat := [lblAddress, lblAddressEnd, lblData, lblLast, lblDone, lblDataEnd, lblSuccess, lblNack, lblOutOfRange]

/-- The labels of a text stand in that order, each at a statement of its own. -/
def PhasesInOrder (lines : List Line) : Prop := (phaseLabels.map fun l => labelIndex l lines).IsChain (· < ·)

theorem readLines_phasesInOrder (i addr len : Word) : PhasesInOrder (readLines i addr len) := by
  have hlabels : (phaseLabels.map fun l => labelIndex l (readLines i addr len)) = [8, 12, 15, 16, 17, 19, 23, 24, 25] := rfl
  rw [PhasesInOrder, hlabels]
  decide

theorem writeLines_phasesInOrder (i addr len : Word) : PhasesInOrder (writeLines i addr len) := by
  have hlabels : (phaseLabels.map fun l => labelIndex l (writeLines i addr len)) = [8, 12, 16, 17, 18, 22, 24, 25, 26] := rfl
  rw [PhasesInOrder, hlabels]
  decide

theorem txnStateAt_eq (lines : List Line) (pc k : Nat) :
    txnStateAt lines pc k =
      if pc < labelIndex lblAddress lines then some .idle
      else if pc < labelIndex lblAddressEnd lines then some .addressPhase
      else if labelIndex lblData lines ≤ pc ∧ pc < labelIndex lblLast lines ∨
          labelIndex lblDone lines ≤ pc ∧ pc < labelIndex lblDataEnd lines then
        some (.dataPhase k)
      else if pc = labelIndex lblSuccess lines then some .complete
      else if pc = labelIndex lblNack lines then some .aborted
      else none := by
  simp only [txnStateAt, between, Bool.or_eq_true, Bool.and_eq_true, decide_eq_true_eq]

/-- Settles O57: with the labels in order, each clause's range meets one branch of `txnStateAt_eq` and none before it. -/
theorem transactionStatesByPosition : Obligations.TransactionStatesByPosition := by
  refine ⟨fun s i addr len buf lines pc hpc hcur => ?_, fun s hread hwrite => ?_⟩
  · have htxn : s.txnState = txnStateAt lines pc (s.varValue varK).toNat ∧ PhasesInOrder lines := by
      obtain ⟨hcur, rfl⟩ | ⟨hcur, rfl⟩ := hcur
      · exact ⟨by rw [State.txnState, hcur, hpc], readLines_phasesInOrder i addr len⟩
      · exact ⟨by rw [State.txnState, hcur, hpc], writeLines_phasesInOrder i addr len⟩
    obtain ⟨htxn, horder⟩ := htxn
    rw [htxn, txnStateAt_eq]
    simp only [PhasesInOrder, phaseLabels, List.map, List.isChain_cons_cons] at horder
    refine ⟨fun _ => ?_, fun _ _ => ?_, fun _ _ => ?_, fun _ _ => ?_, fun _ _ => ?_, fun _ _ => ?_, fun _ _ => ?_, fun _ => ?_,
      fun _ => ?_, fun _ => ?_⟩
    · rw [if_pos (by omega)]
    · rw [if_neg (by omega), if_pos (by omega)]
    · iterate 5 rw [if_neg (by omega)]
    · iterate 2 rw [if_neg (by omega)]
      rw [if_pos (by omega)]
    · iterate 5 rw [if_neg (by omega)]
    · iterate 2 rw [if_neg (by omega)]
      rw [if_pos (by omega)]
    · iterate 5 rw [if_neg (by omega)]
    · iterate 3 rw [if_neg (by omega)]
      rw [if_pos (by omega)]
    · iterate 4 rw [if_neg (by omega)]
      rw [if_pos (by omega)]
    · iterate 5 rw [if_neg (by omega)]
  · cases hcur : s.host.current with
    | none => simp [State.txnState, hcur]
    | some c =>
      cases c with
      | read i addr len buf => exact absurd hcur (hread i addr len buf)
      | write i addr buf len => exact absurd hcur (hwrite i addr len buf)
      | enable _ | setClock _ _ | disable _ => simp [State.txnState, hcur]

end Sys2Proof.Machine
end

section
/-! Proofs of the family of exceptions (60_exceptions.md): the run stops after a fault or a refusal, a fault is the whole effect of its access,
and the interrupt output is CTR.IEN and SR.IF. -/

namespace Sys2Proof.Machine

/-! Quiescence (R222). -/

theorem Inst.live_eq_false_iff {i : Inst} : i.live = false ↔ i.faults ≠ [] ∨ i.refused = true := by
  rw [← Bool.not_eq_true, Inst.live_iff, not_and_or, Bool.not_eq_false]

/-- What passes the guard of a run that is not live is a fault, whatever the guarded step would have done. -/
theorem State.whileLive_ne_next {s : State} (h : s.inst.live = false) (o : Host.Outcome State Fault Refusal) (t : State) :
    s.whileLive o ≠ .next t := by
  rw [State.whileLive_quiescent h]
  exact nofun

/-- Settles O12: the machine's step, every access and the completion stand behind the one guard of a live run. -/
theorem quiescentRunHasNoStep : Obligations.QuiescentRunHasNoStep := by
  intro s hs
  have hl : s.inst.live = false := Inst.live_eq_false_iff.2 hs
  refine ⟨State.whileLive_ne_next hl _, fun i t => ?_, State.whileLive_ne_next hl _⟩
  rw [exec_quiescent i hl]
  exact nofun

/-! Faults (R220). -/

/-- An access leaves the fault list, or recording one reason is all it does. -/
theorem exec_faults {i : Instr} {s t : State} (h : exec i s = .next t) : t.inst.faults = s.inst.faults ∨ ∃ r, t = s.raise r := by
  obtain ⟨-, hraise | ⟨d, -, -, rfl⟩ | ⟨-, b, rfl⟩ | ⟨d, -, -, rfl⟩ | ⟨d, -, -, rfl⟩ | ⟨d, -, -, rfl⟩ | ⟨d, -, -, rfl⟩ |
    ⟨c, k, -, -, rfl⟩⟩ := exec_cases h
  case inl => exact .inr hraise
  case inr.inr.inr.inr.inr.inr.inr => exact .inl (by rw [State.issue_acknowledge])
  all_goals exact .inl rfl

/-- Settles O38: an access that changes the fault list is a `raise`, by `exec_faults`. -/
theorem faultHasNoOtherEffect : Obligations.FaultHasNoOtherEffect := by
  intro i s t h hne
  exact (exec_faults h).resolve_left hne

/-! The interrupt output (R226). -/

theorem Inst.irq_iff (i : Inst) : i.irq = true ↔ i.ien = true ∧ i.iflag = true :=
  Bool.and_eq_true_iff

/-- An access leaves IEN, or it is a CTR write (R115). -/
theorem exec_ien {i : Instr} {s t : State} (h : exec i s = .next t) : t.inst.ien = s.inst.ien ∨ ∃ d, i = .wrCtr d := by
  obtain ⟨-, ⟨r, rfl⟩ | ⟨d, -, -, rfl⟩ | ⟨-, b, rfl⟩ | ⟨d, -, -, rfl⟩ | ⟨d, -, -, rfl⟩ | ⟨d, rfl, -, -⟩ | ⟨d, -, -, rfl⟩ |
    ⟨c, k, -, -, rfl⟩⟩ := exec_cases h
  case inr.inr.inr.inr.inr.inl => exact .inr ⟨d, rfl⟩
  case inr.inr.inr.inr.inr.inr.inr => exact .inl (by rw [State.issue_acknowledge])
  all_goals exact .inl rfl

/-- An access leaves the interrupt output, or it is one of the two that write its bits: CTR, and CR with IACK. -/
theorem exec_irq {i : Instr} {s t : State} (h : exec i s = .next t) :
    t.inst.irq = s.inst.irq ∨ (∃ d, i = .wrCtr d) ∨ ∃ c, i.command = some (c, true) := by
  obtain hien | hctr := exec_ien h
  · obtain hif | ⟨-, hiack⟩ := exec_iflag h
    · exact .inl (by rw [Inst.irq, Inst.irq, hien, hif])
    · exact .inr (.inr hiack)
  · exact .inr (.inl hctr)

/-- Settles O37: of the cases of a step, only a completion and an access can change IEN or IF; `exec_irq` says which accesses. -/
theorem interruptOutputFollowsItsBits : Obligations.InterruptOutputFollowsItsBits := by
  refine ⟨Inst.irq_iff, fun s t hs hne => ?_⟩
  obtain ⟨-, e | e | ⟨hmove, w, i, v, hw, hd, hx, e⟩ | ⟨hmove, c, hc, -⟩⟩ := step_cases hs
  · exact absurd (by rw [e]) hne
  · exact absurd (by rw [e]; rfl) hne
  · obtain hkeep | hwrites := exec_irq hx
    · exact absurd (by rw [e, hkeep, State.chooseMove_inst]) hne
    · exact .inr ⟨hmove, w, i, hw, hd, hwrites⟩
  · exact .inl ⟨hmove, by simp [hc]⟩

end Sys2Proof.Machine
end
